-- ==== Sys2Proof/Word.lean ====
section
/-! DEFINITION. The block's words of a fixed width (00_scope.md R9: every value is unsigned;
30_encoding.md R55). A timestamp's width is a parameter and stands in Config.lean; field
extraction, checksums and elapsed time stand in Decode.lean and under Machine/. -/

namespace Sys2Proof

/-- A `u8`: one byte of a frame (20_memory.md R40). -/
abbrev Byte := BitVec 8

/-- A `u16`: a transaction word (30_encoding.md R55) or a result word (R69). -/
abbrev Word := BitVec 16

end Sys2Proof
end

