-- ==== Sys2Proof/Config.lean ====
section
/-! DEFINITION. The implementation parameters of 00_scope.md R7 as fields of one configuration record,
each with its normative default, under the constraints of R8; the frame layout (R62), which is
OPEN (92_eei_decisions.md D13); and this hardware's configuration. The parameters are fixed for
the life of the machine (10_state.md R34); no register holds one. Log entries 1 and 2. -/

namespace Sys2Proof

/-- A parameter set (R7): every literal of the source is a field here and no constant of the semantics,
which takes a parameter set as an argument. The last fields are R8's constraints, so that a set
that breaks one cannot be written (93_implementation_defined.md I20); `template_length` is R43's. -/
structure Params where
  /-- `FRAME_LEN`: command frame length in bytes, checksum included -/
  frameLen : Nat := 20
  /-- `REPLY_LEN`: reply frame length in bytes, checksum included -/
  replyLen : Nat := 14
  /-- `REPLY_TEMPLATE`: the constant reply bytes, index 0 first (20_memory.md R43) -/
  replyTemplate : List Byte :=
    [0x02, 0x0E, 0x01, 0x00, 0x80, 0x00, 0x00, 0x00, 0x00, 0x50, 0x00, 0x00, 0xFF, 0x00]
  /-- `PULSES_HI_IDX`: reply index of the pulses value's high byte (0-based, D16) -/
  pulsesHiIdx : Nat := 8
  /-- `PULSES_LO_IDX`: reply index of the pulses value's low byte -/
  pulsesLoIdx : Nat := 9
  /-- `REPLY_CSUM_IDX`: reply index of the checksum -/
  replyCsumIdx : Nat := 13
  /-- `DEBOUNCE_MS`: minimum spacing between qualifying edges -/
  debounceMs : Nat := 1
  /-- `PULSES_PER_WINDOW`: qualifying edges per measurement window -/
  pulsesPerWindow : Nat := 10
  /-- `STALE_MS`: time since the last window close after which the speed is 0 -/
  staleMs : Nat := 500
  /-- `SPEED_MIN_X10`: the noise floor, 1.0 km/h in tenths -/
  speedMinX10 : Nat := 10
  /-- `SPEED_MAX_X10`: the ceiling, 99.0 km/h in tenths -/
  speedMaxX10 : Nat := 990
  /-- `STATIONARY_PULSES`: the pulses value reported at speed 0 -/
  stationaryPulses : Nat := 0x1770
  /-- `FRAME_GAP_MS`: the intra-frame silence timeout -/
  frameGapMs : Nat := 50
  /-- `LINK_LOSS_MS`: the link-loss failsafe timeout -/
  linkLossMs : Nat := 1000
  /-- `THROTTLE_MAX`: the top of the 10-bit throttle field -/
  throttleMax : Nat := 1023
  /-- `PWM_MIN`: the throttle output at throttle 0 when the failsafe is not active -/
  pwmMin : Nat := 60
  /-- `PWM_MAX`: the throttle output at `THROTTLE_MAX` when the failsafe is not active -/
  pwmMax : Nat := 255
  /-- `PWM_FAILSAFE`: the throttle output when the failsafe is active -/
  pwmFailsafe : Nat := 0
  /-- `TS_W`: the width in bits of `now` and of every timestamp -/
  tsW : Nat := 32
  /-- `TICK_MS`: one unit of `now`, in ms -/
  tickMs : Nat := 1
  /-- `PI_NUM`: numerator of the approximation of π (D9) -/
  piNum : Nat := 355
  /-- `PI_DEN`: denominator of the approximation of π (D9) -/
  piDen : Nat := 113
  /-- `KMH_X10`: tenths of km/h per mm/ms (D9; 93_implementation_defined.md G1) -/
  kmhX10 : Nat := 36
  /-- `INTERVAL_MAX`: the saturation of the pulses value (D11) -/
  intervalMax : Nat := 0xFFFF
  frameLen_bounds : 2 ≤ frameLen ∧ frameLen ≤ 32 := by decide
  replyLen_ge : 2 ≤ replyLen := by decide
  replyCsumIdx_eq : replyCsumIdx = replyLen - 1 := by decide
  pulsesIdx_distinct : pulsesHiIdx ≠ pulsesLoIdx := by decide
  pulsesIdx_below : pulsesHiIdx < replyCsumIdx ∧ pulsesLoIdx < replyCsumIdx := by decide
  pulsesPerWindow_pos : 1 ≤ pulsesPerWindow := by decide
  piDen_pos : 1 ≤ piDen := by decide
  throttleMax_pos : 1 ≤ throttleMax := by decide
  template_length : replyTemplate.length = replyLen := by decide

/-- A `u(TS_W)`: the clock value `now` and every timestamp register (R7, R11; 60_exceptions.md R173). -/
abbrev Params.Time (P : Params) := BitVec P.tsW
/-- An index of `rxbuf` or `pframe`, `[0, FRAME_LEN - 1]` (10_state.md R27, 20_memory.md R40). -/
abbrev Params.FrameIndex (P : Params) := Fin P.frameLen
/-- A value of `edge_count`, `[0, PULSES_PER_WINDOW - 1]` (10_state.md R23). -/
abbrev Params.EdgeCount (P : Params) := Fin P.pulsesPerWindow
/-- The offset of a single-byte field, `[0, FRAME_LEN - 2]` (R8). -/
abbrev Params.ByteOffset (P : Params) := Fin (P.frameLen - 1)
/-- The offset of a two-byte field, `[0, FRAME_LEN - 3]` (R8). -/
abbrev Params.PairOffset (P : Params) := Fin (P.frameLen - 2)

/-- Index 0, where a frame begins. -/
def Params.firstIndex (P : Params) : P.FrameIndex :=
  ⟨0, Nat.lt_of_lt_of_le Nat.two_pos P.frameLen_bounds.1⟩
/-- No edge counted. -/
def Params.noEdges (P : Params) : P.EdgeCount := ⟨0, P.pulsesPerWindow_pos⟩

/-- The byte offsets of the Parameters fields in the command frame, the `OFF_*` parameters of R7. The
types carry R8's bounds, so that no field covers the checksum byte. -/
structure Offsets (P : Params) where
  /-- `OFF_DRIVE_MODE` -/
  offDriveMode : P.ByteOffset
  /-- `OFF_GEAR` -/
  offGear : P.ByteOffset
  /-- `OFF_KICK` -/
  offKick : P.ByteOffset
  /-- `OFF_MAGNETS` -/
  offMagnets : P.ByteOffset
  /-- `OFF_WHEEL_DIAM` (two bytes) -/
  offWheelDiam : P.PairOffset
  /-- `OFF_PAS_SENS` -/
  offPasSens : P.ByteOffset
  /-- `OFF_PAS_START` -/
  offPasStart : P.ByteOffset
  /-- `OFF_SPEED_LIMIT` -/
  offSpeedLimit : P.ByteOffset
  /-- `OFF_CURRENT_LIMIT` -/
  offCurrentLimit : P.ByteOffset
  /-- `OFF_BATT_CUTOFF` (two bytes) -/
  offBattCutoff : P.PairOffset
  /-- `OFF_THROTTLE` (two bytes) -/
  offThrottle : P.PairOffset
  /-- `OFF_FLAGS` -/
  offFlags : P.ByteOffset
  deriving DecidableEq, Repr

/-- The 15 bytes the fields take (30_encoding.md R62): nine single bytes, the bit-field byte among them,
and three pairs. -/
def Offsets.taken {P : Params} (o : Offsets P) : List Nat :=
  [o.offDriveMode.val, o.offGear.val, o.offKick.val, o.offMagnets.val, o.offPasSens.val,
    o.offPasStart.val, o.offSpeedLimit.val, o.offCurrentLimit.val, o.offFlags.val,
    o.offWheelDiam.val, o.offWheelDiam.val + 1, o.offBattCutoff.val, o.offBattCutoff.val + 1,
    o.offThrottle.val, o.offThrottle.val + 1]

/-- A frame layout: offsets at which no two fields share a byte, so that together they take 15 payload
bytes, as R62 says, and with `FRAME_LEN` 20 leave four to no field. -/
structure Layout (P : Params) extends Offsets P where
  fields_disjoint : toOffsets.taken.Nodup
  deriving DecidableEq, Repr

/-- This hardware's parameters: the defaults, which are normative for it (R7). Log entry 1. -/
abbrev Config.params : Params := {}

/-- What holds the hardware's layout. The default value only shows that a layout exists, which Lean asks
for before it admits the constant below; it is not the value of that constant. -/
structure Config.LayoutBox where
  layout : Layout Config.params :=
    { offDriveMode := ⟨0, by decide⟩, offGear := ⟨1, by decide⟩, offKick := ⟨2, by decide⟩
      offMagnets := ⟨3, by decide⟩, offPasSens := ⟨4, by decide⟩, offPasStart := ⟨5, by decide⟩
      offSpeedLimit := ⟨6, by decide⟩, offCurrentLimit := ⟨7, by decide⟩
      offFlags := ⟨8, by decide⟩, offWheelDiam := ⟨9, by decide⟩
      offBattCutoff := ⟨11, by decide⟩, offThrottle := ⟨13, by decide⟩
      fields_disjoint := by decide }
  deriving Inhabited

/-- The hardware's frame layout, OPEN (R62, D13): no source gives an offset, so this constant has no
body and no proof can see one. Log entry 2. -/
opaque Config.openLayout : Config.LayoutBox

/-- The hardware's frame layout: any layout at all. -/
def Config.layout : Layout Config.params := Config.openLayout.layout

/-- A clock value or timestamp of this hardware, 32 bits wide. -/
abbrev Time := Config.params.Time
/-- An index of this hardware's `rxbuf` and `pframe`, 0 to 19. -/
abbrev FrameIndex := Config.params.FrameIndex

end Sys2Proof
end

