-- ==== Sys2Proof/Syntax.lean ====
section
/-! DEFINITION. The block's operations, one constructor per row of spec/opcode_table.json
(30_encoding.md R57), the Parameters field names `RDPAR` selects (R59), why a word is reserved
(R76), and which agent issues an operation (00_scope.md R13). -/

namespace Sys2Proof

/-- The fields of the Parameters record, in the order of the field codes 0 to 13 of R59. Codes 14
and 15 are reserved and have no constructor. -/
inductive Field where
  | driveMode
  | gear
  | kickToStart
  | magnetCount
  | wheelDiameterMm
  | pasSensitivity
  | pasStartIntensity
  | speedLimit
  | currentLimit
  | batteryCutoff
  | throttle
  | pasMagnets
  | cruise
  | ebrake
  deriving DecidableEq, Repr

/-- The ten operations (R57). -/
inductive Instr where
  /-- `NOP` (45_readout.md R145) -/
  | nop
  /-- `TICK` (44_link_supervisor.md R130) -/
  | tick
  /-- `RXB b` (43_framer.md R113); `b` is `w[7:0]` -/
  | rxb (b : Byte)
  /-- `EDGE` (41_pulse_timer.md R80) -/
  | edge
  /-- `RDSPD` (42_speed_estimator.md R96) -/
  | rdspd
  /-- `RDPUL` (42_speed_estimator.md R97) -/
  | rdpul
  /-- `RDTHR` (44_link_supervisor.md R136) -/
  | rdthr
  /-- `RDSTAT` (45_readout.md R149) -/
  | rdstat
  /-- `RDPAR f` (45_readout.md R146); the code of `f` is `w[11:8]` -/
  | rdpar (f : Field)
  /-- `RDFRM i` (45_readout.md R148); `i` is `w[4:0]`, admitted below `FRAME_LEN` -/
  | rdfrm (i : BitVec 5)
  deriving DecidableEq, Repr

/-- Why a word is reserved (30_encoding.md R76), one constructor per kind R76 lists. -/
inductive DecodeError where
  /-- `op` is 0xA to 0xF -/
  | reservedOpcode
  /-- a field the operation does not use is nonzero (R58) -/
  | unusedFieldNonzero
  /-- `RDPAR` with `sel` 14 or 15 (R59) -/
  | reservedField
  /-- `RDFRM` with an index of `FRAME_LEN` or more (R60) -/
  | reservedIndex
  deriving DecidableEq, Repr

/-- The two agents inside the block (00_scope.md R13). -/
inductive Agent where
  /-- performs `EDGE`, one per sensor transition -/
  | edgeSide
  /-- performs every other operation -/
  | pollSide
  deriving DecidableEq, Repr

/-- The agent that issues an operation (00_scope.md R13, 41_pulse_timer.md R84). -/
def Instr.agent : Instr → Agent
  | .edge => .edgeSide
  | .nop => .pollSide
  | .tick => .pollSide
  | .rxb _ => .pollSide
  | .rdspd => .pollSide
  | .rdpul => .pollSide
  | .rdthr => .pollSide
  | .rdstat => .pollSide
  | .rdpar _ => .pollSide
  | .rdfrm _ => .pollSide

end Sys2Proof
end

