-- ==== Sys2Proof/WellFormed.lean ====
section
/-! DEFINITION. Which operations a conforming environment may issue (30_encoding.md R60, R76). -/

namespace Sys2Proof

/-- The one operand limit the syntax does not carry by its types: an `RDFRM` index is below
`FRAME_LEN` (R60). -/
def Instr.wellFormed : Instr → Bool
  | .rdfrm i => decide (i.toNat < Config.params.frameLen)
  | .nop => true
  | .tick => true
  | .rxb _ => true
  | .edge => true
  | .rdspd => true
  | .rdpul => true
  | .rdthr => true
  | .rdstat => true
  | .rdpar _ => true

end Sys2Proof
end

