-- ==== Sys2Proof/Decode.lean ====
section
/-! DEFINITION. The transaction word (30_encoding.md R55 to R60, R76 to R78): its fields, the
opcode table, the decoder, total on every 16-bit word and rejecting a reserved word by the reason
R76 gives, and the encoder, written from R57's patterns. -/

namespace Sys2Proof

/-- `w[15:12]` (R55). -/
def opField (w : Word) : BitVec 4 := w.extractLsb' 12 4
/-- `w[11:8]` (R55). -/
def selField (w : Word) : BitVec 4 := w.extractLsb' 8 4
/-- `w[7:0]` (R55). -/
def dataField (w : Word) : Byte := w.extractLsb' 0 8
/-- `w[4:0]`, the frame index of `RDFRM` (R56, R60). -/
def indexField (w : Word) : BitVec 5 := w.extractLsb' 0 5
/-- `w[11:0]`, unused by the operations without an operand (R58). -/
def operandBits (w : Word) : BitVec 12 := w.extractLsb' 0 12
/-- `w[11:5]`, unused by `RDFRM` (R58). -/
def aboveIndex (w : Word) : BitVec 7 := w.extractLsb' 5 7

/-- The field a field code selects (R59); codes 14 and 15 are reserved. -/
def Field.ofCode (c : BitVec 4) : Option Field :=
  match c.toNat with
  | 0 => some .driveMode
  | 1 => some .gear
  | 2 => some .kickToStart
  | 3 => some .magnetCount
  | 4 => some .wheelDiameterMm
  | 5 => some .pasSensitivity
  | 6 => some .pasStartIntensity
  | 7 => some .speedLimit
  | 8 => some .currentLimit
  | 9 => some .batteryCutoff
  | 10 => some .throttle
  | 11 => some .pasMagnets
  | 12 => some .cruise
  | 13 => some .ebrake
  | _ => none

/-- The field code of a field (R59). -/
def Field.code : Field → BitVec 4
  | .driveMode => 0
  | .gear => 1
  | .kickToStart => 2
  | .magnetCount => 3
  | .wheelDiameterMm => 4
  | .pasSensitivity => 5
  | .pasStartIntensity => 6
  | .speedLimit => 7
  | .currentLimit => 8
  | .batteryCutoff => 9
  | .throttle => 10
  | .pasMagnets => 11
  | .cruise => 12
  | .ebrake => 13

/-- An operation without an operand: every bit of `w[11:0]` must be zero (R58). -/
def decodeBare (w : Word) (i : Instr) : Except DecodeError Instr :=
  if operandBits w = 0 then .ok i else .error .unusedFieldNonzero

/-- `RXB`: `sel` must be zero (R58); the byte is `w[7:0]` (R56). -/
def decodeRxb (w : Word) : Except DecodeError Instr :=
  if selField w = 0 then .ok (.rxb (dataField w)) else .error .unusedFieldNonzero

/-- `RDPAR`: `data` must be zero (R58); the field code is `w[11:8]` (R56, R59). -/
def decodeRdpar (w : Word) : Except DecodeError Instr :=
  if dataField w = 0 then
    match Field.ofCode (selField w) with
    | some f => .ok (.rdpar f)
    | none => .error .reservedField
  else .error .unusedFieldNonzero

/-- `RDFRM`: `w[11:5]` must be zero (R58); the index is `w[4:0]`, below `FRAME_LEN` (R60). -/
def decodeRdfrm (P : Params) (w : Word) : Except DecodeError Instr :=
  if aboveIndex w = 0 then
    if (indexField w).toNat < P.frameLen then .ok (.rdfrm (indexField w))
    else .error .reservedIndex
  else .error .unusedFieldNonzero

/-- The decoder: the opcode map of R57. Every word is one transaction (R78). -/
def decode (w : Word) : Except DecodeError Instr :=
  match (opField w).toNat with
  | 0x0 => decodeBare w .nop
  | 0x1 => decodeBare w .tick
  | 0x2 => decodeRxb w
  | 0x3 => decodeBare w .edge
  | 0x4 => decodeBare w .rdspd
  | 0x5 => decodeBare w .rdpul
  | 0x6 => decodeBare w .rdthr
  | 0x7 => decodeBare w .rdstat
  | 0x8 => decodeRdpar w
  | 0x9 => decodeRdfrm Config.params w
  | _ => .error .reservedOpcode

/-- The encoder: the word patterns of R57. -/
def encode : Instr → Word
  | .nop => 0b0000000000000000#16
  | .tick => 0b0001000000000000#16
  | .rxb b => 0b00100000#8 ++ b
  | .edge => 0b0011000000000000#16
  | .rdspd => 0b0100000000000000#16
  | .rdpul => 0b0101000000000000#16
  | .rdthr => 0b0110000000000000#16
  | .rdstat => 0b0111000000000000#16
  | .rdpar f => 0b1000#4 ++ f.code ++ 0b00000000#8
  | .rdfrm i => 0b10010000000#11 ++ i

/-- A row of spec/opcode_table.json: a word is of the row when its bits under `mask` are `pattern`. -/
structure OpcodeRow where
  mnemonic : String
  mask : Word
  pattern : Word
  deriving DecidableEq, Repr

/-- The row of spec/opcode_table.json an operation belongs to. -/
def Instr.row : Instr → OpcodeRow
  | .nop => ⟨"NOP", 0xFFFF, 0x0000⟩
  | .tick => ⟨"TICK", 0xFFFF, 0x1000⟩
  | .rxb _ => ⟨"RXB", 0xFF00, 0x2000⟩
  | .edge => ⟨"EDGE", 0xFFFF, 0x3000⟩
  | .rdspd => ⟨"RDSPD", 0xFFFF, 0x4000⟩
  | .rdpul => ⟨"RDPUL", 0xFFFF, 0x5000⟩
  | .rdthr => ⟨"RDTHR", 0xFFFF, 0x6000⟩
  | .rdstat => ⟨"RDSTAT", 0xFFFF, 0x7000⟩
  | .rdpar _ => ⟨"RDPAR", 0xF0FF, 0x8000⟩
  | .rdfrm _ => ⟨"RDFRM", 0xFFE0, 0x9000⟩

/-- What the decoder reads from a table row's word `w` of `nbits` bits; the bits above `nbits` are
zero. A transaction is one 16-bit word on a port, so no byte order enters (R55). -/
def decodeTableWord (nbits w : Nat) : Option Instr :=
  (decode (BitVec.ofNat 16 (w % 2 ^ nbits))).toOption

end Sys2Proof
end

