-- ==== Sys2Proof/Machine/State.lean ====
section
/-! DEFINITION. The machine's state (10_state.md R22) as plain data, the state after reset
(70_reset_and_hazards.md R190, R191), and the reasons a step can stop. The block's own registers
are `pulse`, `link` and `pframe`; the other fields are its port: what the environment has issued
and what the block has put out (log entries 4, 5 and 6). -/

namespace Sys2Proof.Machine

/-- One of the block's byte spaces (20_memory.md R40): the bytes that are not 0x00, by rising index.
An unlisted index reads 0x00, the reset contents R191 gives. Its form is `Memory.wf`
(Machine/Ops.lean); the accesses there take an index below `FRAME_LEN`, so an index outside the
space cannot be named. Log entry 3. -/
abbrev Memory := List Host.Cell

/-- PulseTimingState (10_state.md R23 to R26). -/
structure PulseTiming (P : Params) where
  /-- qualifying edges since the window opened, `[0, PULSES_PER_WINDOW - 1]` (R23) -/
  edgeCount : P.EdgeCount
  /-- when the current window opened, which is the last window close (R24) -/
  windowStart : P.Time
  /-- the last qualifying edge (R25) -/
  lastEdge : P.Time
  /-- length of the last window that closed, in units of `now`; 0 means none has (R26) -/
  windowDuration : P.Time
  deriving DecidableEq, Repr

/-- LinkState (10_state.md R27 to R30). -/
structure LinkState (P : Params) where
  /-- index in `rxbuf` where the next byte goes, `[0, FRAME_LEN - 1]` (R27) -/
  cursor : P.FrameIndex
  /-- the receive buffer (R28) -/
  rxbuf : Memory
  /-- the `now` of the last `RXB` (R29) -/
  lastByteTs : P.Time
  /-- the `now` of the last `RXB` that completed a valid frame (R30) -/
  lastValidTs : P.Time
  deriving DecidableEq, Repr

/-- The Parameters record (10_state.md R32, 43_framer.md R112), widths of 30_encoding.md R59. It is
not stored: it is decoded from `pframe` whenever a field is read. -/
structure Parameters where
  driveMode : BitVec 8
  gear : BitVec 8
  kickToStart : BitVec 8
  magnetCount : BitVec 8
  wheelDiameterMm : BitVec 16
  pasSensitivity : BitVec 8
  pasStartIntensity : BitVec 8
  speedLimit : BitVec 8
  currentLimit : BitVec 8
  batteryCutoff : BitVec 16
  throttle : BitVec 10
  pasMagnets : BitVec 4
  cruise : BitVec 1
  ebrake : BitVec 1
  deriving DecidableEq, Repr

/-- One transaction on the command port: the word and the clock value that comes with it (R55). -/
structure Transaction where
  word : Word
  now : Time
  deriving DecidableEq, Repr

/-- What the environment can do to the block: issue a transaction (60_exceptions.md R177), of either
agent, or raise the reset input with the clock value of that moment (70_reset_and_hazards.md R190). -/
inductive Input where
  | op (t : Transaction)
  | reset (now0 : Time)
  deriving DecidableEq, Repr

/-- The machine, with this hardware's parameters. -/
structure State where
  /-- PulseTimingState, shared by both agents, written by the edge side alone (60_exceptions.md R174) -/
  pulse : PulseTiming Config.params
  /-- LinkState -/
  link : LinkState Config.params
  /-- the last validated command frame (10_state.md R31) -/
  pframe : Memory
  /-- the clock input as it came with the current operation (60_exceptions.md R173); input, not state -/
  now : Time
  /-- what the environment will issue, in the one total order of both agents (20_memory.md R51) -/
  pending : List Input
  /-- the result words returned so far, oldest first (30_encoding.md R69, 70_reset_and_hazards.md R204) -/
  results : List Word
  /-- the reply frames emitted so far, oldest first (43_framer.md R119, 70_reset_and_hazards.md R199) -/
  replies : List (List Byte)
  deriving DecidableEq, Repr

/-- The reasons the machine stops with a fault: none. "A model has no fault outcome for any admitted
operation" (60_exceptions.md R160), and no behaviour of the block is a fault or stuck case
(93_implementation_defined.md part 1). -/
inductive Fault where
  deriving DecidableEq, Repr

/-- The reasons the machine refuses a transaction. -/
inductive Refusal where
  /-- raised by an arm of `exec` that has no meaning yet; no arm is left that raises it. Safe. -/
  | notModelled (mnemonic : String)
  /-- raised by `step` on a reserved transaction word, and by `RDFRM` given an index the word could
  not carry, with R76's reason (30_encoding.md R76: a model refuses a reserved word). Safe. -/
  | reservedWord (why : DecodeError)
  deriving DecidableEq, Repr

/-- What the command port offers the next step: nothing, a reset, an operation with the state that
has accepted it, or a reserved word. -/
inductive Fetched where
  | idle
  | reset (now0 : Time) (s : State)
  | run (i : Instr) (s : State)
  | reserved (why : DecodeError)
  deriving DecidableEq, Repr

/-- PulseTimingState after reset at `now0` (70_reset_and_hazards.md R191). -/
def PulseTiming.resetAt {P : Params} (now0 : P.Time) : PulseTiming P :=
  ⟨P.noEdges, now0, now0, 0⟩

/-- LinkState after reset at `now0` (R191); the buffer is all 0x00. -/
def LinkState.resetAt {P : Params} (now0 : P.Time) : LinkState P :=
  ⟨P.firstIndex, [], now0, now0⟩

/-- The machine right after a reset at clock value `now0` (R190, R191), its port quiet. -/
def State.resetAt (now0 : Time) : State :=
  ⟨PulseTiming.resetAt now0, LinkState.resetAt now0, [], now0, [], [], []⟩

/-- The machine right after reset; with no clock at reset, `now0` is 0 (R190). -/
def State.reset : State := State.resetAt 0

end Sys2Proof.Machine
end

