-- ==== Sys2Proof/Machine/Ops.lean ====
section
/-! DEFINITION. The named operations over the byte spaces, the clock, the checksum and the state:
every meaning reads and writes through these. The block takes no exception and has no return from
one (60_exceptions.md R160, R169), so there is no operation for either; what the environment can
do beside issuing an operation is reset, `resetBlock`. -/

namespace Sys2Proof.Machine

/-! ### The byte spaces (20_memory.md R40 to R42) -/

/-- What an index no cell lists reads as: 0x00, the reset contents (70_reset_and_hazards.md R191). -/
def Memory.unlisted : Byte := 0x00

/-- The byte a list of cells holds at an index. -/
def Memory.lookup : Memory → Nat → Byte
  | [], _ => Memory.unlisted
  | (a, b) :: m, k => if a = k then b else Memory.lookup m k

/-- A list of cells with the byte at `k` set to `v`, canonical if the list was. -/
def Memory.insert (k : Nat) (v : Byte) : Memory → Memory
  | [] => if v = Memory.unlisted then [] else [(k, v)]
  | (a, b) :: m =>
    if k < a then
      if v = Memory.unlisted then (a, b) :: m else (k, v) :: (a, b) :: m
    else if k = a then
      if v = Memory.unlisted then m else (k, v) :: m
    else (a, b) :: Memory.insert k v m

/-- Canonical form from index `lo` on: indices rising from `lo`, below `n`, and no cell equal to what an
unlisted index reads as. -/
def Memory.wfFrom (n lo : Nat) : Memory → Bool
  | [] => true
  | (a, b) :: m =>
    decide (lo ≤ a) && decide (a < n) && decide (b ≠ Memory.unlisted)
      && Memory.wfFrom n (a + 1) m

/-- The canonical form of a byte space of `FRAME_LEN` bytes. -/
def Memory.wf (P : Params) (m : Memory) : Bool := Memory.wfFrom P.frameLen 0 m

/-- `rxbuf[i]`, `pframe[i]` (00_scope.md R12). -/
def Memory.read {n : Nat} (m : Memory) (i : Fin n) : Byte := Memory.lookup m i.val

/-- `rxbuf[i] <- b` (00_scope.md R12). -/
def Memory.write {n : Nat} (m : Memory) (i : Fin n) (b : Byte) : Memory :=
  Memory.insert i.val b m

/-- The `FRAME_LEN` bytes of a space, index 0 first. -/
def Memory.bytes (P : Params) (m : Memory) : List Byte :=
  List.ofFn fun i : P.FrameIndex => Memory.read m i

/-! ### The checksum (43_framer.md R110) -/

/-- The XOR of a sequence of bytes. -/
def xorAll : List Byte → Byte
  | [] => 0
  | b :: bs => b ^^^ xorAll bs

/-- `xsum(f, n)`: the XOR of all bytes but the last. -/
def xsum (f : List Byte) : Byte := xorAll f.dropLast

/-- `checksum_ok(f, n)`: the last byte is the XOR of the others. -/
def checksumOk (f : List Byte) : Bool := f.getLast? == some (xsum f)

/-! ### The clock (00_scope.md R11) -/

/-- `age(t) = (now - t) mod 2^TS_W`, in units of `now`. -/
def age {w : Nat} (now t : BitVec w) : Nat := (now - t).toNat

/-- An age in ms, as the thresholds `*_MS` are: one unit of `now` is `TICK_MS` (R7). With the normative
`TICK_MS` of 1 it is the age itself (log entry 13). -/
def ageMs (P : Params) (now t : P.Time) : Nat := age now t * P.tickMs

/-! ### The state's updates -/

/-- Write PulseTimingState. -/
def State.setPulse (s : State) (p : PulseTiming Config.params) : State := { s with pulse := p }

/-- Write LinkState. -/
def State.setLink (s : State) (l : LinkState Config.params) : State := { s with link := l }

/-- `pframe <- f`, all bytes at once (20_memory.md R42). -/
def State.setPframe (s : State) (f : Memory) : State := { s with pframe := f }

/-- `emit Reply(f)`: the frame goes out on the reply output (43_framer.md R119). -/
def State.emitReply (s : State) (f : List Byte) : State := { s with replies := s.replies ++ [f] }

/-- `result <- r`: the operation returns `r` on the result port (30_encoding.md R69). -/
def State.returnWord (s : State) (r : Word) : State := { s with results := s.results ++ [r] }

/-- The port hands over the next input: the clock shows `now` and `rest` is still to come. -/
def State.accept (s : State) (now : Time) (rest : List Input) : State :=
  { s with now := now, pending := rest }

/-- The end of every operation: it returns its result word, and the block is ready for the next
(30_encoding.md R69, 60_exceptions.md R160). -/
def complete (s : State) (r : Word) : Host.Outcome State Fault Refusal := .next (s.returnWord r)

/-- Reset at clock value `now0` (70_reset_and_hazards.md R190, R191): every register takes its reset
value, the partial frame is discarded and nothing is emitted. What the port has carried before and
will carry after is the environment's and stays (log entry 6). -/
def resetBlock (now0 : Time) (s : State) : State :=
  { s with
    pulse := PulseTiming.resetAt now0
    link := LinkState.resetAt now0
    pframe := []
    now := now0 }

end Sys2Proof.Machine
end

