-- ==== Sys2Proof/Machine/Operands.lean ====
section
/-! DEFINITION. Every operand form: a byte of a frame, a two-byte big-endian value (20_memory.md R44),
and the Parameters fields extracted from the latched frame (30_encoding.md R59, R63 to R65;
43_framer.md R112). The frame layout is an argument, since the hardware's is OPEN (D13). -/

namespace Sys2Proof.Machine

/-- A single-byte field at an offset `[0, FRAME_LEN - 2]`. -/
def byteAt {P : Params} (f : Memory) (k : P.ByteOffset) : Byte :=
  Memory.read (n := P.frameLen) f ⟨k.val, by omega⟩

/-- `MemRead(f, k, 2)`: the byte at the lower index is the more significant (R44, R63). -/
def pairAt {P : Params} (f : Memory) (k : P.PairOffset) : Word :=
  Memory.read (n := P.frameLen) f ⟨k.val, by omega⟩
    ++ Memory.read (n := P.frameLen) f ⟨k.val + 1, by omega⟩

/-- `decode(f)` (43_framer.md R112). -/
def decodeParams {P : Params} (L : Layout P) (f : Memory) : Parameters where
  driveMode := byteAt f L.offDriveMode
  gear := byteAt f L.offGear
  kickToStart := byteAt f L.offKick
  magnetCount := byteAt f L.offMagnets
  wheelDiameterMm := pairAt f L.offWheelDiam
  pasSensitivity := byteAt f L.offPasSens
  pasStartIntensity := byteAt f L.offPasStart
  speedLimit := byteAt f L.offSpeedLimit
  currentLimit := byteAt f L.offCurrentLimit
  batteryCutoff := pairAt f L.offBattCutoff
  throttle := (pairAt f L.offThrottle).extractLsb' 0 10
  pasMagnets := (byteAt f L.offFlags).extractLsb' 0 4
  cruise := (byteAt f L.offFlags).extractLsb' 6 1
  ebrake := (byteAt f L.offFlags).extractLsb' 7 1

/-- One field of the Parameters record, `zext_16` (45_readout.md R146). -/
def Parameters.field (p : Parameters) : Field → Word
  | .driveMode => p.driveMode.setWidth 16
  | .gear => p.gear.setWidth 16
  | .kickToStart => p.kickToStart.setWidth 16
  | .magnetCount => p.magnetCount.setWidth 16
  | .wheelDiameterMm => p.wheelDiameterMm
  | .pasSensitivity => p.pasSensitivity.setWidth 16
  | .pasStartIntensity => p.pasStartIntensity.setWidth 16
  | .speedLimit => p.speedLimit.setWidth 16
  | .currentLimit => p.currentLimit.setWidth 16
  | .batteryCutoff => p.batteryCutoff
  | .throttle => p.throttle.setWidth 16
  | .pasMagnets => p.pasMagnets.setWidth 16
  | .cruise => p.cruise.setWidth 16
  | .ebrake => p.ebrake.setWidth 16

/-- The Parameters record as it stands: `decode(pframe)` (10_state.md R32). -/
def State.params (L : Layout Config.params) (s : State) : Parameters := decodeParams L s.pframe

end Sys2Proof.Machine
end

