-- ==== Sys2Proof/Machine/Flags.lean ====
section
/-! DEFINITION. The block's time tests and status levels (60_exceptions.md R172), the result words
that report events (30_encoding.md R69 to R71), and the error codes of the taxonomy
(60_exceptions.md R161). The block stores no flag (10_state.md R33): each is computed when read. -/

namespace Sys2Proof.Machine

/-! ### The four time tests (60_exceptions.md R172) -/

/-- The debounce: an edge is discarded exactly when it is closer than `DEBOUNCE_MS` to the last
qualifying edge (41_pulse_timer.md R81). -/
def bounces {P : Params} (now : P.Time) (p : PulseTiming P) : Bool :=
  decide (ageMs P now p.lastEdge < P.debounceMs)

/-- The staleness test: more than `STALE_MS` since the last window close (42_speed_estimator.md R91). -/
def stale {P : Params} (now : P.Time) (p : PulseTiming P) : Bool :=
  decide (P.staleMs < ageMs P now p.windowStart)

/-- `silence_expired(now)` (44_link_supervisor.md R131). -/
def silenceExpired {P : Params} (now : P.Time) (l : LinkState P) : Bool :=
  decide (l.cursor.val ≠ 0) && decide (P.frameGapMs < ageMs P now l.lastByteTs)

/-- `failsafe(now)` (44_link_supervisor.md R132). -/
def failsafe {P : Params} (now : P.Time) (l : LinkState P) : Bool :=
  decide (P.linkLossMs < ageMs P now l.lastValidTs)

/-- `stalled(now)` (42_speed_estimator.md R98). -/
def stalled {P : Params} (now : P.Time) (p : PulseTiming P) : Bool :=
  decide (p.windowDuration.toNat = 0) || stale now p

/-! ### Result words (30_encoding.md R70, R71) -/

/-- What an `RXB` did to the frame; maps onto the source's `FrameReady | Incomplete` (R70). -/
inductive FrameOutcome where
  | incomplete
  | frameValid
  | checksumMismatch
  deriving DecidableEq, Repr

/-- Bits `[1:0]` of an `RXB` result. -/
def FrameOutcome.code : FrameOutcome → BitVec 2
  | .incomplete => 0
  | .frameValid => 1
  | .checksumMismatch => 2

/-- The result of `RXB`: `timeout` is bit 2, the frame outcome bits `[1:0]`. -/
def rxbWord (timeout : Bool) (o : FrameOutcome) : Word :=
  0#13 ++ BitVec.ofBool timeout ++ o.code

/-- The result of `TICK`: `timeout` is bit 2. -/
def tickWord (timeout : Bool) : Word := 0#13 ++ BitVec.ofBool timeout ++ 0#2

/-- The result of `EDGE`: `qualified` is bit 0, `closed` bit 1. -/
def edgeWord (qualified closed : Bool) : Word :=
  0#14 ++ BitVec.ofBool closed ++ BitVec.ofBool qualified

/-- The result of `RDSTAT`: cursor `[12:8]`, which R8 keeps below 32, stalled `[1]`, failsafe `[0]`. -/
def statWord {P : Params} (cursor : P.FrameIndex) (stalled failsafe : Bool) : Word :=
  0#3 ++ BitVec.ofNat 5 cursor.val ++ 0#6 ++ BitVec.ofBool stalled ++ BitVec.ofBool failsafe

/-! ### The error taxonomy (60_exceptions.md R161) -/

/-- The block's error kinds; the first two after `none` are events, the last two levels. -/
inductive ErrorCode where
  | none
  | checksumMismatch
  | frameTimeout
  | linkLoss
  | sensorStall
  deriving DecidableEq, Repr

/-- The numeric codes of R161. -/
def ErrorCode.code : ErrorCode → Nat
  | .none => 0
  | .checksumMismatch => 1
  | .frameTimeout => 2
  | .linkLoss => 3
  | .sensorStall => 4

/-- The error events a result word reports, by the operation that returned it (R161: only `RXB` finds
a checksum mismatch, only `TICK` and `RXB` a frame timeout). -/
def reportedEvents (i : Instr) (r : Word) : List ErrorCode :=
  match i with
  | .rxb _ =>
    (if r.extractLsb' 0 2 = 2 then [.checksumMismatch] else [])
      ++ (if r.extractLsb' 2 1 = 1 then [.frameTimeout] else [])
  | .tick => if r.extractLsb' 2 1 = 1 then [.frameTimeout] else []
  | .nop => []
  | .edge => []
  | .rdspd => []
  | .rdpul => []
  | .rdthr => []
  | .rdstat => []
  | .rdpar _ => []
  | .rdfrm _ => []

/-- The error levels that hold at the current clock value (R164, R165); they may hold together (R166). -/
def State.levels (s : State) : List ErrorCode :=
  (if failsafe s.now s.link then [.linkLoss] else [])
    ++ (if stalled s.now s.pulse then [.sensorStall] else [])

end Sys2Proof.Machine
end

