-- ==== Sys2Proof/Machine/SpeedEstimator.lean ====
section
/-! DEFINITION. The Speed Estimator: the functions SPEED and PULSES and the reads `RDSPD` and `RDPUL`
(42_speed_estimator.md). Arithmetic is on exact naturals with one floor division at the end (R90,
R100; 00_scope.md R10). -/

namespace Sys2Proof.Machine

/-- `speed_raw(D, M, T)` in tenths of km/h, for `D` in mm and `T` in ms (R90). -/
def speedRaw (P : Params) (D M T : Nat) : Nat :=
  P.kmhX10 * P.piNum * D * P.pulsesPerWindow / (P.piDen * M * T)

/-- The noise floor and the ceiling of R91. -/
def clampSpeed (P : Params) (r : Nat) : Nat :=
  if r < P.speedMinX10 then 0
  else if P.speedMaxX10 < r then P.speedMaxX10
  else r

/-- `SPEED(now)` for wheel diameter `D` and magnet count `M` (R91): 0 when no window has closed, when
the last close is stale, or when there are no magnets (R93). The window's length is taken in ms (log
entry 13). -/
def speedOf {P : Params} (now : P.Time) (p : PulseTiming P) (D M : Nat) : Nat :=
  if stalled now p then 0
  else if M = 0 then 0
  else clampSpeed P (speedRaw P D M (p.windowDuration.toNat * P.tickMs))

/-- `INTERVAL(s, D)`, for `s > 0` (R94). -/
def intervalOf (P : Params) (s D : Nat) : Nat :=
  min P.intervalMax (P.kmhX10 * P.piNum * D / (P.piDen * s))

/-- `PULSES(now)` for a speed `s` and wheel diameter `D` (R95). -/
def pulsesOf (P : Params) (s D : Nat) : Nat :=
  if s = 0 then P.stationaryPulses else intervalOf P s D

/-- `SPEED(now)` from the current registers and the current `pframe` (R99). -/
def State.speed (L : Layout Config.params) (s : State) : Nat :=
  speedOf s.now s.pulse (s.params L).wheelDiameterMm.toNat (s.params L).magnetCount.toNat

/-- `PULSES(now)` from the current registers and the current `pframe` (R99). -/
def State.pulses (L : Layout Config.params) (s : State) : Nat :=
  pulsesOf Config.params (s.speed L) (s.params L).wheelDiameterMm.toNat

/-- `RDSPD` (R96). -/
def execRdspd (s : State) : Host.Outcome State Fault Refusal :=
  complete s (BitVec.ofNat 16 (s.speed Config.layout))

/-- `RDPUL` (R97). -/
def execRdpul (s : State) : Host.Outcome State Fault Refusal :=
  complete s (BitVec.ofNat 16 (s.pulses Config.layout))

end Sys2Proof.Machine
end

