-- ==== Sys2Proof/Machine/Framer.lean ====
section
/-! DEFINITION. The Frame Decoder/Encoder: `encode_reply` and `RXB` (43_framer.md). -/

namespace Sys2Proof.Machine

/-- `encode_reply(p)` (R118): the template with the pulses value big-endian in its two places and the
checksum in its last. -/
def encodeReply (P : Params) (p : Word) : List Byte :=
  let f := (P.replyTemplate.set P.pulsesHiIdx (p.extractLsb' 8 8)).set P.pulsesLoIdx
    (p.extractLsb' 0 8)
  f.set P.replyCsumIdx (xsum f)

/-- The index a byte received at `now` goes to: the cursor, or 0 when the silence test discards a
stale partial frame first (R113, R114). -/
def storeIndex {P : Params} (now : P.Time) (l : LinkState P) : P.FrameIndex :=
  if silenceExpired now l then P.firstIndex else l.cursor

/-- The cursor after a byte at index `k`: back to 0 when the frame is complete (R115). -/
def cursorAfter {P : Params} (k : P.FrameIndex) : P.FrameIndex :=
  if h : k.val + 1 < P.frameLen then ⟨k.val + 1, h⟩ else P.firstIndex

/-- LinkState after byte `b` is stored at `now`, before any validation (R113). -/
def storeByte {P : Params} (now : P.Time) (b : Byte) (l : LinkState P) : LinkState P :=
  { l with
    cursor := cursorAfter (storeIndex now l)
    rxbuf := Memory.write l.rxbuf (storeIndex now l) b
    lastByteTs := now }

/-- What the byte stored at `now` did to the frame, with `rxbuf` as it is after the store (R113, R115,
R162). -/
def frameOutcome {P : Params} (now : P.Time) (b : Byte) (l : LinkState P) : FrameOutcome :=
  if (storeIndex now l).val + 1 = P.frameLen then
    if checksumOk (Memory.bytes P (storeByte now b l).rxbuf) then .frameValid else .checksumMismatch
  else .incomplete

/-- A valid frame in `rxbuf` is latched whole and refreshes the link-loss timer (R116). -/
def latchFrame (s : State) : State :=
  (s.setPframe s.link.rxbuf).setLink { s.link with lastValidTs := s.now }

/-- The reply to the frame just latched (R118, R120): PULSES reads the new `pframe`. -/
def sendReply (s : State) : State :=
  s.emitReply (encodeReply Config.params (BitVec.ofNat 16 (s.pulses Config.layout)))

/-- `RXB b` (R113). A frame whose checksum is wrong changes nothing more than the store did (R117). -/
def execRxb (b : Byte) (s : State) : Host.Outcome State Fault Refusal :=
  let stored := s.setLink (storeByte s.now b s.link)
  let timeout := silenceExpired s.now s.link
  match frameOutcome s.now b s.link with
  | .incomplete => complete stored (rxbWord timeout .incomplete)
  | .checksumMismatch => complete stored (rxbWord timeout .checksumMismatch)
  | .frameValid => complete (sendReply (latchFrame stored)) (rxbWord timeout .frameValid)

end Sys2Proof.Machine
end

