-- ==== Sys2Proof/Machine/LinkSupervisor.lean ====
section
/-! DEFINITION. The Link Supervisor and the throttle output: `TICK` and `RDTHR`
(44_link_supervisor.md). -/

namespace Sys2Proof.Machine

/-- LinkState with the partial frame discarded: `cursor <- 0`; `rxbuf` is not cleared (R130). -/
def discardPartial {P : Params} (l : LinkState P) : LinkState P := { l with cursor := P.firstIndex }

/-- `TICK` (R130). -/
def execTick (s : State) : Host.Outcome State Fault Refusal :=
  if silenceExpired s.now s.link then
    complete (s.setLink (discardPartial s.link)) (tickWord true)
  else complete s (tickWord false)

/-- `throttle_map(x)` (R135). -/
def throttleMap (P : Params) (x : Nat) : Nat :=
  P.pwmMin + (P.pwmMax - P.pwmMin) * x / P.throttleMax

/-- The throttle output level at the current clock value (R136). -/
def State.throttleLevel (L : Layout Config.params) (s : State) : Nat :=
  if failsafe s.now s.link then Config.params.pwmFailsafe
  else throttleMap Config.params (s.params L).throttle.toNat

/-- `RDTHR` (R136). -/
def execRdthr (s : State) : Host.Outcome State Fault Refusal :=
  complete s (BitVec.ofNat 16 (s.throttleLevel Config.layout))

end Sys2Proof.Machine
end

