-- ==== Sys2Proof/Machine/PulseTimer.lean ====
section
/-! DEFINITION. The Pulse Timer: `EDGE` (41_pulse_timer.md). -/

namespace Sys2Proof.Machine

/-- What one sensor transition at `now` does to PulseTimingState, and the result word (R80): discarded
by the debounce (R81), counted, or counted and closing the window (R82). -/
def takeEdge {P : Params} (now : P.Time) (p : PulseTiming P) : PulseTiming P × Word :=
  if bounces now p then (p, edgeWord false false)
  else if h : p.edgeCount.val + 1 < P.pulsesPerWindow then
    (⟨⟨p.edgeCount.val + 1, h⟩, p.windowStart, now, p.windowDuration⟩, edgeWord true false)
  else (⟨P.noEdges, now, now, now - p.windowStart⟩, edgeWord true true)

/-- `EDGE` (R80). Its timestamp is `now`; it writes PulseTimingState alone (R84). -/
def execEdge (s : State) : Host.Outcome State Fault Refusal :=
  complete (s.setPulse (takeEdge s.now s.pulse).1) (takeEdge s.now s.pulse).2

end Sys2Proof.Machine
end

