-- ==== Sys2Proof/Machine/Readout.lean ====
section
/-! DEFINITION. The read-out operations `NOP`, `RDPAR`, `RDFRM` and `RDSTAT` (45_readout.md). -/

namespace Sys2Proof.Machine

/-- `NOP` (R145). It evaluates no timeout. -/
def execNop (s : State) : Host.Outcome State Fault Refusal := complete s 0

/-- `RDPAR f` (R146, R147). -/
def execRdpar (f : Field) (s : State) : Host.Outcome State Fault Refusal :=
  complete s ((s.params Config.layout).field f)

/-- `RDFRM i` (R148). An index of `FRAME_LEN` or more is reserved (30_encoding.md R60, R76) and no
decoded word carries one. -/
def execRdfrm (i : BitVec 5) (s : State) : Host.Outcome State Fault Refusal :=
  if h : i.toNat < Config.params.frameLen then
    complete s ((Memory.read (n := Config.params.frameLen) s.pframe ⟨i.toNat, h⟩).setWidth 16)
  else .refused (.reservedWord .reservedIndex)

/-- `RDSTAT` (R149). It does not run the silence test. -/
def execRdstat (s : State) : Host.Outcome State Fault Refusal :=
  complete s (statWord s.link.cursor (stalled s.now s.pulse) (failsafe s.now s.link))

end Sys2Proof.Machine
end

