-- ==== Sys2Proof/Machine/Dispatch.lean ====
section
/-! DEFINITION. Which meaning each operation of spec/opcode_table.json has. The clock value of the
operation is `s.now`. -/

namespace Sys2Proof.Machine

def exec (i : Instr) (s : State) : Host.Outcome State Fault Refusal :=
  match i with
  | .nop => Sys2Proof.Machine.execNop s
  | .tick => Sys2Proof.Machine.execTick s
  | .rxb b => Sys2Proof.Machine.execRxb b s
  | .edge => Sys2Proof.Machine.execEdge s
  | .rdspd => Sys2Proof.Machine.execRdspd s
  | .rdpul => Sys2Proof.Machine.execRdpul s
  | .rdthr => Sys2Proof.Machine.execRdthr s
  | .rdstat => Sys2Proof.Machine.execRdstat s
  | .rdpar f => Sys2Proof.Machine.execRdpar f s
  | .rdfrm k => Sys2Proof.Machine.execRdfrm k s

end Sys2Proof.Machine
end

