-- ==== Sys2Proof/Machine/Fetch.lean ====
section
/-! DEFINITION. How the next operation reaches the block: the command port (00_scope.md R6,
30_encoding.md R55). The block has no program counter and fetches no instructions (10_state.md R21);
the environment issues one input at a time, in one total order (20_memory.md R51). -/

namespace Sys2Proof.Machine

/-- Take one transaction from the port: decode its word, and let its clock value be `now`. -/
def fetchTransaction (t : Transaction) (rest : List Input) (s : State) : Fetched :=
  match decode t.word with
  | .ok i => .run i (s.accept t.now rest)
  | .error e => .reserved e

/-- What the port offers the next step. -/
def fetch (s : State) : Fetched :=
  match s.pending with
  | [] => .idle
  | .reset now0 :: rest => .reset now0 (s.accept now0 rest)
  | .op t :: rest => fetchTransaction t rest s

end Sys2Proof.Machine
end

