-- ==== Sys2Proof/Machine/Step.lean ====
section
/-! DEFINITION. One step of the machine: the next input of the command port takes effect, atomically
(20_memory.md R49). -/

namespace Sys2Proof.Machine

/-- One step. With nothing on the port the block waits and keeps all state (60_exceptions.md R176, log
entry 4); a reserved word is refused (30_encoding.md R76). -/
def step (s : State) : Host.Outcome State Fault Refusal :=
  match fetch s with
  | .idle => .next s
  | .reset now0 s' => .next (resetBlock now0 s')
  | .run i s' => exec i s'
  | .reserved e => .refused (.reservedWord e)

/-- `s` with the word of `nbits` bits `w` as the next transaction on the command port, at the clock
value the port shows now; `step` runs exactly it. -/
def State.withFetchWord (s : State) (nbits w : Nat) : State :=
  { s with pending := .op ⟨BitVec.ofNat 16 (w % 2 ^ nbits), s.now⟩ :: s.pending }

end Sys2Proof.Machine
end

