-- ==== Sys2Proof/Machine/Assembly.lean ====
section
/-! DEFINITION. The spec's assembly listings and pseudo-operations (30_encoding.md R74, R75): what a
listing puts on the command port. -/

namespace Sys2Proof.Machine

/-- What stands on a line: an operation, `RXF` with its bytes, or `RXFC` with the bytes before the
checksum (R75). -/
inductive AsmOp where
  | instr (i : Instr)
  | rxf (bytes : List Byte)
  | rxfc (bytes : List Byte)
  deriving DecidableEq, Repr

/-- A line `@t OP`; without `@t` it has the `now` of the line before (R74). -/
structure AsmLine where
  time : Option Time
  op : AsmOp
  deriving DecidableEq, Repr

/-- The operations a line stands for (R75). R75 writes `RXF` with at least one byte and `RXFC` with 19; what
either means with another number of bytes it leaves open, and the model expands them by the same
rule, `RXF` of no bytes to nothing (DESIGN CHOICE, log entry 14). -/
def AsmOp.expand : AsmOp → List Instr
  | .instr i => [i]
  | .rxf bytes => bytes.map .rxb
  | .rxfc bytes => (bytes ++ [xorAll bytes]).map .rxb

/-- The inputs of a listing; `t` is the `now` in force before its first line. -/
def assemble (t : Time) : List AsmLine → List Input
  | [] => []
  | line :: rest =>
    let now := line.time.getD t
    line.op.expand.map (fun i => .op ⟨encode i, now⟩) ++ assemble now rest

end Sys2Proof.Machine
end

