-- ==== Sys2Proof/Safety.lean ====
section
/-! DEFINITION. What the block keeps, and what the environment owes it, in the terms the statements use:
the invariants of the registers and of what has been emitted, and the environment's two duties, a
monotonic clock and well-formed words (60_exceptions.md R177). -/

namespace Sys2Proof.Safety

open Sys2Proof.Machine

/-- Both byte spaces are in canonical form (20_memory.md R40). -/
def MemoryCanonical (s : State) : Prop :=
  Memory.wf Config.params s.link.rxbuf = true ∧ Memory.wf Config.params s.pframe = true

/-- `pframe` holds a frame whose checksum is valid (10_state.md R31; the all-zero reset frame is one). -/
def LatchedFrameValid (s : State) : Prop := checksumOk (Memory.bytes Config.params s.pframe) = true

/-- Every reply emitted so far is `REPLY_LEN` bytes with a valid checksum (43_framer.md R118). -/
def RepliesValid (s : State) : Prop :=
  ∀ f ∈ s.replies, f.length = Config.params.replyLen ∧ checksumOk f = true

/-- The timing registers are ordered in time, at most one edge is counted per debounce interval, and a
window that has closed lasted `PULSES_PER_WINDOW * DEBOUNCE_MS` at least (41_pulse_timer.md R86). It
speaks of clock values that have not wrapped, in ms, which are the units of `now`. -/
def WindowTiming (s : State) : Prop :=
  s.pulse.windowStart.toNat + s.pulse.edgeCount.val * Config.params.debounceMs ≤ s.pulse.lastEdge.toNat
    ∧ s.pulse.lastEdge.toNat ≤ s.now.toNat
    ∧ (s.pulse.windowDuration.toNat = 0
        ∨ Config.params.pulsesPerWindow * Config.params.debounceMs ≤ s.pulse.windowDuration.toNat)

/-- The clock does not step backward at the next input (20_memory.md R52). A duty of the clock, which
the block does not check (70_reset_and_hazards.md R196). -/
def ClockAdvances (s : State) : Prop :=
  match s.pending with
  | [] => True
  | .op t :: _ => s.now.toNat ≤ t.now.toNat
  | .reset now0 :: _ => s.now.toNat ≤ now0.toNat

/-- The input is one a conforming environment issues: a reset, or a word that is not reserved
(30_encoding.md R76, 60_exceptions.md R177). -/
def Admitted : Input → Prop
  | .op t => ∃ i, decode t.word = .ok i
  | .reset _ => True

end Sys2Proof.Safety
end

