-- ==== Sys2Proof/Certificates/Slice0/Obligations.lean ====
section
/-! DEFINITION. The statements for the provers, from the spec's numbered rules. `s.now` is the clock value
that came with the operation. Where a statement rests on a choice of the model, its docstring names
the log entry. -/

open Sys2Proof Sys2Proof.Machine Sys2Proof.Safety

/-! ### Encoding (30_encoding.md) -/

/-- Every admitted operation's word decodes to that operation, with every operand at every value. -/
def Obligations.DecodeReadsBackEveryEncoding : Prop :=
  ∀ i : Instr, i.wellFormed = true → decode (encode i) = .ok i

/-- Every word is one row's or reserved: an accepted word is the encoding of what it decodes to, is of
that operation's row of the opcode table, and carries an admitted operand (R57 to R60). -/
def Obligations.DecodeAcceptsOnlyEncodings : Prop :=
  ∀ (w : Word) (i : Instr), decode w = .ok i →
    encode i = w ∧ i.wellFormed = true ∧ w &&& i.row.mask = i.row.pattern

/-- A few words of R57's map, written out, and what they stand for. -/
def Obligations.SpecWordsDecode : Prop :=
  decode 0b0000000000000000#16 = .ok .nop ∧
  decode 0b0001000000000000#16 = .ok .tick ∧
  decode 0b0010000010101010#16 = .ok (.rxb 0xAA) ∧
  decode 0b0011000000000000#16 = .ok .edge ∧
  decode 0b0110000000000000#16 = .ok .rdthr ∧
  decode 0b1000010000000000#16 = .ok (.rdpar .wheelDiameterMm) ∧
  decode 0b1001000000010011#16 = .ok (.rdfrm 19)

/-- R76: a transaction is refused exactly when its word `n` is reserved: an opcode of 0xA or more; any
bit of `w[11:0]` with an opcode that takes no operand; `RXB` with `sel` nonzero; `RDPAR` with `data`
nonzero or `sel` 14 or 15; `RDFRM` with `w[11:5]` nonzero or an index of 20 or more. -/
def Obligations.ReservedWordsAreRefused : Prop :=
  ∀ (s : State) (tr : Transaction) (rest : List Input), s.pending = .op tr :: rest →
    ((∃ why, step s = .refused (.reservedWord why)) ↔
      (10 ≤ tr.word.toNat / 4096 ∨
        (tr.word.toNat / 4096 ∈ [0, 1, 3, 4, 5, 6, 7] ∧ tr.word.toNat % 4096 ≠ 0) ∨
        (tr.word.toNat / 4096 = 2 ∧ tr.word.toNat / 256 % 16 ≠ 0) ∨
        (tr.word.toNat / 4096 = 8 ∧
          (tr.word.toNat % 256 ≠ 0 ∨ 14 ≤ tr.word.toNat / 256 % 16)) ∨
        (tr.word.toNat / 4096 = 9 ∧ 20 ≤ tr.word.toNat % 4096)))

/-! ### The step, and reset (70_reset_and_hazards.md) -/

/-- When the word next on the port decodes to `i`, the step is `exec i`, on the state whose clock shows
that transaction's clock value and whose port has moved on. -/
def Obligations.StepRunsTheDecodedOperation : Prop :=
  ∀ (s : State) (tr : Transaction) (rest : List Input) (i : Instr),
    s.pending = .op tr :: rest → decode tr.word = .ok i →
    step s = exec i { s with now := tr.now, pending := rest }

/-- The model's choice (log entry 4): with nothing on the port, a step keeps all state, as R176 keeps
it between operations. -/
def Obligations.StepWaitsOnAQuietPort : Prop :=
  ∀ s : State, s.pending = [] → step s = .next s

/-- R191: a reset at `now0` gives every register its reset value. -/
def Obligations.ResetGivesEveryRegisterItsValue : Prop :=
  ∀ (s : State) (now0 : Time) (rest : List Input), s.pending = .reset now0 :: rest →
    ∃ t, step s = .next t ∧
      t.pulse.edgeCount.val = 0 ∧ t.pulse.windowStart = now0 ∧ t.pulse.lastEdge = now0 ∧
      t.pulse.windowDuration = 0 ∧ t.link.cursor.val = 0 ∧
      (∀ k : FrameIndex, Memory.read t.link.rxbuf k = 0) ∧ t.link.lastByteTs = now0 ∧
      t.link.lastValidTs = now0 ∧ ∀ k : FrameIndex, Memory.read t.pframe k = 0

/-- R190: a reset emits nothing. That it returns no result word, leaves the rest of the port as it is and
shows `now0` as the clock value is the model's choice (log entry 6). -/
def Obligations.ResetLeavesThePortToTheEnvironment : Prop :=
  ∀ (s : State) (now0 : Time) (rest : List Input), s.pending = .reset now0 :: rest →
    ∃ t, step s = .next t ∧ t.replies = s.replies ∧ t.results = s.results ∧
      t.pending = rest ∧ t.now = now0

/-- R192: what the reads return right after a reset at any clock value. -/
def Obligations.OutputsRightAfterReset : Prop :=
  ∀ now0 : Time,
    exec .rdspd (State.resetAt now0) = .next ((State.resetAt now0).returnWord 0) ∧
    exec .rdpul (State.resetAt now0) = .next ((State.resetAt now0).returnWord 0x1770) ∧
    exec .rdthr (State.resetAt now0) = .next ((State.resetAt now0).returnWord 60) ∧
    exec .rdstat (State.resetAt now0) = .next ((State.resetAt now0).returnWord 2) ∧
    ∀ f, exec (.rdpar f) (State.resetAt now0) = .next ((State.resetAt now0).returnWord 0)

/-- R194: while `pframe` is the reset frame, `RDTHR` returns the off floor 60 within 1000 ms of
`last_valid_ts` and 0 after: never drive power above the off floor. -/
def Obligations.NoDrivePowerBeforeAFrame : Prop :=
  ∀ s : State, s.pframe = [] →
    exec .rdthr s = .next (s.returnWord (if age s.now s.link.lastValidTs ≤ 1000 then 60 else 0))

/-! ### The Pulse Timer (41_pulse_timer.md) -/

/-- R80, R82: the effect of `EDGE`, in every state: discarded, counted, or counted and closing the window.
The elapsed times are modulo 2^32. -/
def Obligations.EdgeTakesOneTransition : Prop :=
  ∀ s : State, ∃ t r, exec .edge s = .next t ∧ t.results = s.results ++ [r] ∧
    ((s.now - s.pulse.lastEdge).toNat < 1 → r = 0 ∧ t.pulse = s.pulse) ∧
    (1 ≤ (s.now - s.pulse.lastEdge).toNat →
      t.pulse.lastEdge = s.now ∧
      (s.pulse.edgeCount.val + 1 = 10 → r = 3 ∧ t.pulse.edgeCount.val = 0 ∧
        t.pulse.windowDuration = s.now - s.pulse.windowStart ∧ t.pulse.windowStart = s.now) ∧
      (s.pulse.edgeCount.val + 1 ≠ 10 → r = 1 ∧
        t.pulse.edgeCount.val = s.pulse.edgeCount.val + 1 ∧
        t.pulse.windowDuration = s.pulse.windowDuration ∧
        t.pulse.windowStart = s.pulse.windowStart)) ∧
    t.link = s.link ∧ t.pframe = s.pframe ∧ t.replies = s.replies

/-- R81: an edge is discarded exactly when the last qualifying edge is less than 1 ms old; then no
register changes, so that the next edge is tested against the same qualifying edge. -/
def Obligations.EdgeDiscardedExactlyWhenBouncing : Prop :=
  ∀ s : State,
    (exec .edge s = .next (s.returnWord 0) ↔ age s.now s.pulse.lastEdge < 1) ∧
    ∀ t, exec .edge s = .next t →
      (t.pulse.lastEdge = s.pulse.lastEdge ↔ age s.now s.pulse.lastEdge < 1)

/-- The frame of `EDGE` (R84, 10_state.md R35): nothing outside PulseTimingState. -/
def Obligations.EdgeWritesPulseTimingAlone : Prop :=
  ∀ s t : State, exec .edge s = .next t →
    t.link = s.link ∧ t.pframe = s.pframe ∧
    (∀ k : FrameIndex, Memory.read t.link.rxbuf k = Memory.read s.link.rxbuf k) ∧
    (∀ k : FrameIndex, Memory.read t.pframe k = Memory.read s.pframe k) ∧
    t.now = s.now ∧ t.pending = s.pending ∧ t.replies = s.replies

/-- R82 over a whole window: ten edges, each at least 1 ms after the one before (the first after the
last qualifying edge), from a fresh count, are all counted and close one window at the tenth, whose
duration runs from the previous close. -/
def Obligations.TenSpacedEdgesCloseOneWindow : Prop :=
  ∀ (s : State) (ts : List Time) (rest : List Input),
    s.pulse.edgeCount.val = 0 → ts.length = 10 →
    List.IsChain (fun a b : Time => 1 ≤ age b a) (s.pulse.lastEdge :: ts) →
    s.pending = ts.map (fun t => Input.op ⟨encode .edge, t⟩) ++ rest →
    ∃ t : State, Host.Core.run Sys2Proof.core 10 s = .next t ∧
      t.results = s.results ++ [1, 1, 1, 1, 1, 1, 1, 1, 1, 3] ∧
      t.pulse.edgeCount.val = 0 ∧ ts.getLast? = some t.pulse.windowStart ∧
      t.pulse.lastEdge = t.pulse.windowStart ∧
      t.pulse.windowDuration = t.pulse.windowStart - s.pulse.windowStart ∧
      t.link = s.link ∧ t.pframe = s.pframe ∧ t.pending = rest

/-- R86: while the clock does not step backward (nor wrap), the timing registers stay ordered and no
window closes in less than 10 ms, so `window_duration` stays 0 or at least 10. -/
def Obligations.WindowTimingIsKept : Prop :=
  ∀ s t : State, WindowTiming s → ClockAdvances s → step s = .next t → WindowTiming t

/-- The timing invariant holds at reset, at any clock value (R83). -/
def Obligations.WindowTimingHoldsAtReset : Prop :=
  ∀ now0 : Time, WindowTiming (State.resetAt now0) ∧ WindowTiming State.reset

/-! ### The Speed Estimator (42_speed_estimator.md) -/

/-- R91, R96: what `RDSPD` returns in every state, as a number, from the current frame's wheel diameter
and magnet count. -/
def Obligations.RdspdReturnsTheSpeedEstimate : Prop :=
  ∀ s : State, ∃ r : Word, exec .rdspd s = .next (s.returnWord r) ∧
    r.toNat =
      if s.pulse.windowDuration.toNat = 0 then 0
      else if 500 < age s.now s.pulse.windowStart then 0
      else if (s.params Config.layout).magnetCount.toNat = 0 then 0
      else
        let q := 36 * 355 * (s.params Config.layout).wheelDiameterMm.toNat * 10 /
          (113 * (s.params Config.layout).magnetCount.toNat * s.pulse.windowDuration.toNat)
        if q < 10 then 0 else if 990 < q then 990 else q

/-- R94, R95, R97: what `RDPUL` returns in every state, as a number, for the speed `v` that `RDSPD`
returns in the same state. -/
def Obligations.RdpulReturnsThePulsesValue : Prop :=
  ∀ s : State, ∃ v r : Word,
    exec .rdspd s = .next (s.returnWord v) ∧ exec .rdpul s = .next (s.returnWord r) ∧
    r.toNat =
      if v.toNat = 0 then 0x1770
      else min 0xFFFF (36 * 355 * (s.params Config.layout).wheelDiameterMm.toNat / (113 * v.toNat))

/-- R91: the speed is 0 or between the floor and the ceiling, under every frame layout. -/
def Obligations.SpeedIsZeroOrInRange : Prop :=
  ∀ (L : Layout Config.params) (s : State), s.speed L = 0 ∨ (10 ≤ s.speed L ∧ s.speed L ≤ 990)

/-- R92: taking the floor first changes no clamp outcome: 0 exactly when the exact speed is under 1.0
km/h, 990 exactly when it is at least 99.0 km/h. -/
def Obligations.ClampsAgreeWithTheExactQuotient : Prop :=
  ∀ D M T : Nat, 0 < M → 0 < T →
    (clampSpeed Config.params (speedRaw Config.params D M T) = 0 ↔ 36 * 355 * D * 10 < 10 * (113 * M * T)) ∧
    (clampSpeed Config.params (speedRaw Config.params D M T) = 990 ↔ 990 * (113 * M * T) ≤ 36 * 355 * D * 10)

/-- R93: no magnets, or a wheel of diameter 0, give speed 0 and the stationary sentinel. -/
def Obligations.NoMagnetsOrNoWheelMeansStationary : Prop :=
  ∀ s : State, (s.params Config.layout).magnetCount = 0 ∨
      (s.params Config.layout).wheelDiameterMm = 0 →
    exec .rdspd s = .next (s.returnWord 0) ∧ exec .rdpul s = .next (s.returnWord 0x1770)

/-- R98: the stalled level is exactly the first two tests of R91; it forces the speed to 0 and shows as
bit 1 of `RDSTAT`. -/
def Obligations.StalledForcesSpeedZero : Prop :=
  ∀ s : State, ∃ r : Word, exec .rdstat s = .next (s.returnWord r) ∧
    (r.getLsbD 1 = true ↔
      (s.pulse.windowDuration = 0 ∨ 500 < age s.now s.pulse.windowStart)) ∧
    (r.getLsbD 1 = true → exec .rdspd s = .next (s.returnWord 0))

/-- R99: `RDSPD` and `RDPUL` depend on `now`, `window_duration`, `window_start` and the two wheel fields
of the current frame alone. -/
def Obligations.EstimateReadsOnlyItsInputs : Prop :=
  ∀ s s' : State, s.now = s'.now →
    s.pulse.windowDuration = s'.pulse.windowDuration →
    s.pulse.windowStart = s'.pulse.windowStart →
    (s.params Config.layout).wheelDiameterMm = (s'.params Config.layout).wheelDiameterMm →
    (s.params Config.layout).magnetCount = (s'.params Config.layout).magnetCount →
    ∃ v r, exec .rdspd s = .next (s.returnWord v) ∧ exec .rdspd s' = .next (s'.returnWord v) ∧
      exec .rdpul s = .next (s.returnWord r) ∧ exec .rdpul s' = .next (s'.returnWord r)

/-! ### The framer (43_framer.md) -/

/-- R113: the effect of `RXB b`, in every state, with `timeout` the silence test of R131 and `k` the
index the byte goes to. -/
def Obligations.RxbTakesOneByte : Prop :=
  ∀ (b : Byte) (s : State), ∀ (timeout : Bool) (k : FrameIndex) (buf : Memory),
    (timeout = true ↔ s.link.cursor.val ≠ 0 ∧ 50 < age s.now s.link.lastByteTs) →
    k = (if timeout then 0 else s.link.cursor) →
    buf = Memory.write s.link.rxbuf k b →
    (∀ h : k.val + 1 < 20, exec (.rxb b) s = .next
      { s with
        link := { cursor := ⟨k.val + 1, h⟩, rxbuf := buf, lastByteTs := s.now,
                  lastValidTs := s.link.lastValidTs }
        results := s.results ++ [if timeout then 4 else 0] }) ∧
    (k.val + 1 = 20 → checksumOk (Memory.bytes Config.params buf) = false → exec (.rxb b) s = .next
      { s with
        link := { cursor := 0, rxbuf := buf, lastByteTs := s.now,
                  lastValidTs := s.link.lastValidTs }
        results := s.results ++ [2] }) ∧
    (k.val + 1 = 20 → checksumOk (Memory.bytes Config.params buf) = true → exec (.rxb b) s = .next
      { s with
        link := { cursor := 0, rxbuf := buf, lastByteTs := s.now, lastValidTs := s.now }
        pframe := buf
        results := s.results ++ [1]
        replies := s.replies ++ [encodeReply Config.params (BitVec.ofNat 16
          ({ s with pframe := buf }.pulses Config.layout))] })

/-- 20_memory.md R41: `RXB` writes its byte unchanged at the index it goes to, and no other byte of
`rxbuf`. The first clause needs the buffer in canonical form, which every step keeps. -/
def Obligations.RxbStoresItsByteAndNoOther : Prop :=
  ∀ (b : Byte) (s t : State), exec (.rxb b) s = .next t →
    (Memory.wf Config.params s.link.rxbuf = true →
      Memory.read t.link.rxbuf (storeIndex s.now s.link) = b) ∧
    ∀ k : FrameIndex, k ≠ storeIndex s.now s.link →
      Memory.read t.link.rxbuf k = Memory.read s.link.rxbuf k

/-- R117: a frame with a wrong checksum changes nothing but one byte of `rxbuf`, `last_byte_ts` and
`cursor`; no reply is emitted. -/
def Obligations.BadChecksumLeavesParametersAlone : Prop :=
  ∀ (b : Byte) (s t : State), exec (.rxb b) s = .next t →
    (storeIndex s.now s.link).val + 1 = 20 →
    checksumOk (Memory.bytes Config.params t.link.rxbuf) = false →
    t.pframe = s.pframe ∧ t.link.lastValidTs = s.link.lastValidTs ∧ t.replies = s.replies ∧
    t.pulse = s.pulse ∧ t.link.lastByteTs = s.now ∧ t.link.cursor.val = 0 ∧
    (∀ k : FrameIndex, k ≠ 19 → Memory.read t.link.rxbuf k = Memory.read s.link.rxbuf k) ∧
    (∀ k : FrameIndex, Memory.read t.pframe k = Memory.read s.pframe k)

/-- R116, R124, 20_memory.md R42: after an `RXB` completes a valid frame, `RDFRM` reads back the whole
frame: its last byte, the checksum, at index 19, and before it the bytes `rxbuf` held. -/
def Obligations.LatchedFrameIsReadBack : Prop :=
  ∀ (b : Byte) (s t : State), Memory.wf Config.params s.link.rxbuf = true → exec (.rxb b) s = .next t →
    frameOutcome s.now b s.link = .frameValid →
    t.link.lastValidTs = s.now ∧
    exec (.rdfrm 19) t = .next (t.returnWord (b.setWidth 16)) ∧
    ∀ (i : BitVec 5) (h : i.toNat < 19), exec (.rdfrm i) t = .next
      (t.returnWord ((Memory.read s.link.rxbuf ⟨i.toNat, by omega⟩).setWidth 16))

/-- R120: over all operations, a reply is emitted exactly by an `RXB` that completes a valid frame, one
reply, with the pulses value of the state that has the new frame. -/
def Obligations.ReplyExactlyOnAValidFrame : Prop :=
  ∀ (i : Instr) (s t : State), exec i s = .next t →
    (t.replies = s.replies ∧ ¬ ∃ b, i = .rxb b ∧ frameOutcome s.now b s.link = .frameValid) ∨
    (t.replies = s.replies ++ [encodeReply Config.params (BitVec.ofNat 16 (t.pulses Config.layout))] ∧
      ∃ b, i = .rxb b ∧ frameOutcome s.now b s.link = .frameValid ∧
        t.results = s.results ++ [1])

/-- R66, R67, R118: the reply frame, byte by byte, for every pulses value. -/
def Obligations.ReplyFrameLayout : Prop :=
  ∀ p : Word, ∃ hi lo : Byte, p.toNat = 256 * hi.toNat + lo.toNat ∧
    encodeReply Config.params p = [0x02, 0x0E, 0x01, 0x00, 0x80, 0x00, 0x00, 0x00, hi, lo, 0x00, 0x00, 0xFF,
      0x72 ^^^ hi ^^^ lo] ∧
    (encodeReply Config.params p).length = 14 ∧ checksumOk (encodeReply Config.params p) = true

/-- R111: a checksum holds exactly when all bytes XOR to 0; flipping one bit of any byte of a valid frame
makes it invalid; flipping the same bit position in an even number of bytes (those `flips` marks)
leaves it valid. -/
def Obligations.ChecksumDetectsEverySingleBitFlip : Prop :=
  ∀ f : List Byte, 2 ≤ f.length →
    (checksumOk f = true ↔ xorAll f = 0) ∧
    (checksumOk f = true → ∀ k : Nat, k < 8 →
      (∀ (n : Nat) (h : n < f.length),
        checksumOk (f.set n (f[n] ^^^ BitVec.twoPow 8 k)) = false) ∧
      ∀ flips : List Bool, flips.length = f.length → flips.count true % 2 = 0 →
        checksumOk (List.zipWith (fun b x => if x then b ^^^ BitVec.twoPow 8 k else b) f flips)
          = true)

/-- R114, 70_reset_and_hazards.md R201: no byte joins a partial frame more than 50 ms old, `TICK` or no
`TICK`: it becomes byte 0 of a new frame and the timeout is reported. -/
def Obligations.NoByteJoinsAStalePartialFrame : Prop :=
  ∀ (b : Byte) (s : State), s.link.cursor.val ≠ 0 → 50 < age s.now s.link.lastByteTs →
    ∃ t, exec (.rxb b) s = .next t ∧ t.results = s.results ++ [4] ∧ t.link.cursor.val = 1 ∧
      (Memory.wf Config.params s.link.rxbuf = true → Memory.read t.link.rxbuf (0 : FrameIndex) = b) ∧ t.pframe = s.pframe

/-- R115: over all operations, how the cursor moves: an `RXB` puts it behind its byte, or back to 0 when
that byte completes a frame, valid or not; a `TICK` that fires puts it to 0; nothing else moves it. -/
def Obligations.CursorMovesOnlyByTheseRules : Prop :=
  ∀ (i : Instr) (s t : State), exec i s = .next t →
    (∀ b, i = .rxb b → ∀ k : Nat,
      k = (if silenceExpired s.now s.link = true then 0 else s.link.cursor.val) →
      t.link.cursor.val = if k = 19 then 0 else k + 1) ∧
    (i = .tick →
      t.link.cursor.val = if silenceExpired s.now s.link = true then 0 else s.link.cursor.val) ∧
    ((∀ b, i ≠ .rxb b) → i ≠ .tick → t.link.cursor = s.link.cursor)

/-- R123: twenty bytes whose last is the XOR of the others, fed from `cursor = 0` with no gap of more than
50 ms, complete one valid frame: `pframe` is those bytes and one reply is out. -/
def Obligations.TwentyBytesMakeAValidFrame : Prop :=
  ∀ (s : State) (bs : List Byte) (ts : List Time) (rest : List Input),
    Memory.wf Config.params s.link.rxbuf = true → s.link.cursor.val = 0 →
    bs.length = 20 → checksumOk bs = true → ts.length = 20 →
    List.IsChain (fun a b : Time => age b a ≤ 50) ts →
    s.pending = List.zipWith (fun b t => Input.op ⟨encode (.rxb b), t⟩) bs ts ++ rest →
    ∃ t : State, Host.Core.run Sys2Proof.core 20 s = .next t ∧
      t.results = s.results ++ List.replicate 19 0 ++ [1] ∧
      Memory.bytes Config.params t.pframe = bs ∧ t.link.cursor.val = 0 ∧
      ts.getLast? = some t.link.lastValidTs ∧ t.pulse = s.pulse ∧ t.pending = rest ∧
      t.replies = s.replies ++ [encodeReply Config.params (BitVec.ofNat 16 (t.pulses Config.layout))]

/-- R122, for a partial frame of any length: after more than 50 ms of silence the next twenty bytes
complete one frame made of those bytes alone, whether a `TICK` came during the silence or not. -/
def Obligations.SilenceRealignsTheNextFrame : Prop :=
  ∀ (s : State) (bs : List Byte) (ts : List Time) (t0 : Time) (rest : List Input),
    Memory.wf Config.params s.link.rxbuf = true → s.link.cursor.val ≠ 0 →
    bs.length = 20 → checksumOk bs = true → ts.length = 20 →
    List.IsChain (fun a b : Time => age b a ≤ 50) ts →
    (50 < age (ts.headD 0) s.link.lastByteTs →
      s.pending = List.zipWith (fun b t => Input.op ⟨encode (.rxb b), t⟩) bs ts ++ rest →
      ∃ t : State, Host.Core.run Sys2Proof.core 20 s = .next t ∧
        t.results = s.results ++ 4 :: List.replicate 18 0 ++ [1] ∧
        Memory.bytes Config.params t.pframe = bs ∧ t.link.cursor.val = 0 ∧ t.pending = rest) ∧
    (50 < age t0 s.link.lastByteTs →
      s.pending = Input.op ⟨encode .tick, t0⟩ ::
        List.zipWith (fun b t => Input.op ⟨encode (.rxb b), t⟩) bs ts ++ rest →
      ∃ t : State, Host.Core.run Sys2Proof.core 21 s = .next t ∧
        t.results = s.results ++ 4 :: List.replicate 19 0 ++ [1] ∧
        Memory.bytes Config.params t.pframe = bs ∧ t.link.cursor.val = 0 ∧ t.pending = rest)

/-- 10_state.md R31: `pframe` always holds a frame whose checksum is valid; every step keeps it. -/
def Obligations.LatchedFrameStaysValid : Prop :=
  ∀ s t : State, LatchedFrameValid s → step s = .next t → LatchedFrameValid t

/-- Both byte spaces keep their canonical form, of 20 indices and no others (20_memory.md R40), in every
step. The form is the model's own (log entry 3). -/
def Obligations.ByteSpacesStayCanonical : Prop :=
  ∀ s t : State, MemoryCanonical s → step s = .next t → MemoryCanonical t

/-- Every reply the block has put out is 14 bytes with a valid checksum (R118); every step keeps it. -/
def Obligations.EmittedRepliesStayValid : Prop :=
  ∀ s t : State, RepliesValid s → step s = .next t → RepliesValid t

/-- The three invariants above hold at reset, at any clock value. -/
def Obligations.FramerInvariantsHoldAtReset : Prop :=
  ∀ now0 : Time, MemoryCanonical (State.resetAt now0) ∧ LatchedFrameValid (State.resetAt now0) ∧
    RepliesValid (State.resetAt now0) ∧ MemoryCanonical State.reset ∧
    LatchedFrameValid State.reset ∧ RepliesValid State.reset

/-- 30_encoding.md R75: `RXFC` with its 19 bytes puts on the port, at one clock value, the words of a frame
of 20 bytes that is its bytes and their XOR, whose checksum is valid; `RXF`, with at least one byte,
puts exactly its bytes. -/
def Obligations.PseudoOperationsFeedFrames : Prop :=
  ∀ (t now : Time) (bs : List Byte),
    (bs.length = 19 → ∃ f : List Byte, f = bs ++ [xorAll bs] ∧ f.length = 20 ∧
      checksumOk f = true ∧
      assemble t [⟨some now, .rxfc bs⟩]
        = f.map (fun b => Input.op ⟨0x2000 ||| b.setWidth 16, now⟩)) ∧
    (bs ≠ [] → assemble t [⟨some now, .rxf bs⟩]
      = bs.map (fun b => Input.op ⟨0x2000 ||| b.setWidth 16, now⟩))

/-- The model's choice (log entry 14), which R75 leaves open: `RXFC` and `RXF` with any number of bytes
are expanded by the rule R75 gives for 19 and for at least one. -/
def Obligations.PseudoOperationsOfAnyLength : Prop :=
  ∀ (t now : Time) (bs : List Byte),
    checksumOk (bs ++ [xorAll bs]) = true ∧
    assemble t [⟨some now, .rxfc bs⟩]
      = (bs ++ [xorAll bs]).map (fun b => Input.op ⟨0x2000 ||| b.setWidth 16, now⟩) ∧
    assemble t [⟨some now, .rxf bs⟩]
      = bs.map (fun b => Input.op ⟨0x2000 ||| b.setWidth 16, now⟩)

/-! ### The Link Supervisor and the throttle (44_link_supervisor.md) -/

/-- R130, R131: the effect of `TICK`, in every state; `rxbuf` is not cleared and no timestamp written. -/
def Obligations.TickDiscardsAStalePartialFrame : Prop :=
  ∀ s : State,
    (s.link.cursor.val ≠ 0 ∧ 50 < age s.now s.link.lastByteTs → exec .tick s = .next
      { s with
        link := { cursor := 0, rxbuf := s.link.rxbuf, lastByteTs := s.link.lastByteTs,
                  lastValidTs := s.link.lastValidTs }
        results := s.results ++ [4] }) ∧
    (¬ (s.link.cursor.val ≠ 0 ∧ 50 < age s.now s.link.lastByteTs) →
      exec .tick s = .next { s with results := s.results ++ [0] })

/-- R162 and R163: over all operations, which events a result word reports: a checksum mismatch exactly
when an `RXB` stores byte 19 of a frame whose checksum is false, a frame timeout exactly when the
silence test is true at a `TICK` or at the start of an `RXB`. -/
def Obligations.EventsHaveTheirOneCause : Prop :=
  ∀ (i : Instr) (s t : State) (r : Word),
    exec i s = .next t → t.results = s.results ++ [r] →
    (ErrorCode.checksumMismatch ∈ reportedEvents i r ↔
      ∃ b, i = .rxb b ∧ (storeIndex s.now s.link).val = 19 ∧
        checksumOk (Memory.bytes Config.params t.link.rxbuf) = false) ∧
    (ErrorCode.frameTimeout ∈ reportedEvents i r ↔
      (i = .tick ∨ ∃ b, i = .rxb b) ∧ silenceExpired s.now s.link = true)

/-- R163: a discarded partial frame is reported once. After a `TICK` that fires, the next operation at any
clock value reports no timeout: a `TICK` returns 0, and an `RXB` a word whose bit 2 is clear; and
until an `RXB` comes the cursor stays 0, so that the same holds of the operation after that. -/
def Obligations.TimeoutIsReportedOnce : Prop :=
  ∀ s t : State, silenceExpired s.now s.link = true → exec .tick s = .next t →
    t.results = s.results ++ [4] ∧
    ∀ later : Time,
      exec .tick { t with now := later } = .next ({ t with now := later }.returnWord 0) ∧
      (∀ b, ∃ t' r, exec (.rxb b) { t with now := later } = .next t' ∧
        t'.results = t.results ++ [r] ∧ r.getLsbD 2 = false) ∧
      ∀ (i : Instr) (t' : State), (∀ b, i ≠ .rxb b) →
        exec i { t with now := later } = .next t' →
        t'.link.cursor.val = 0 ∧ ∀ after : Time, silenceExpired after t'.link = false

/-- R166 and R70: an `RXB` returns 0, 1, 2 or 4: never a timeout together with a completed frame. -/
def Obligations.TimeoutNeverMeetsCompletion : Prop :=
  ∀ (b : Byte) (s t : State), exec (.rxb b) s = .next t →
    ∃ r, t.results = s.results ++ [r] ∧ (r = 0 ∨ r = 1 ∨ r = 2 ∨ r = 4)

/-- R132, R135, R136: what `RDTHR` returns in every state, as a number, from the current frame's
throttle. -/
def Obligations.RdthrReturnsTheThrottleLevel : Prop :=
  ∀ s : State, ∃ r : Word, exec .rdthr s = .next (s.returnWord r) ∧
    r.toNat =
      if 1000 < (s.now - s.link.lastValidTs).toNat then 0
      else 60 + 195 * (s.params Config.layout).throttle.toNat / 1023

/-- R135, R136: the level is 0 exactly under the failsafe and in [60, 255] otherwise, and the map is
monotone with exact ends. -/
def Obligations.ThrottleLevelRange : Prop :=
  (∀ (L : Layout Config.params) (s : State),
    (failsafe s.now s.link = true → s.throttleLevel L = 0) ∧
    (failsafe s.now s.link = false → 60 ≤ s.throttleLevel L ∧ s.throttleLevel L ≤ 255)) ∧
  (∀ x y : Nat, x ≤ y → throttleMap Config.params x ≤ throttleMap Config.params y) ∧
  throttleMap Config.params 0 = 60 ∧ throttleMap Config.params 1023 = 255

/-- R132, 10_state.md R30: no operation but an `RXB` that completes a valid frame writes `last_valid_ts`,
so that the failsafe holds on through every other operation, at whatever clock value it comes. -/
def Obligations.FailsafeHoldsUntilAValidFrame : Prop :=
  ∀ (i : Instr) (s t : State), exec i s = .next t →
    (∀ b, i = .rxb b → frameOutcome s.now b s.link ≠ .frameValid) →
    t.link.lastValidTs = s.link.lastValidTs ∧
    ∀ later : Time, failsafe later t.link = failsafe later s.link

/-- 60_exceptions.md R161, R164, R165: the two error levels as they are reported: LINK_LOSS is bit 0 of
`RDSTAT` and makes `RDTHR` return 0, SENSOR_STALL is bit 1 and makes `RDSPD` return 0. -/
def Obligations.LevelsShowWhereTheyAreReported : Prop :=
  ∀ s : State, ∃ r : Word, exec .rdstat s = .next (s.returnWord r) ∧
    (ErrorCode.linkLoss ∈ s.levels ↔ r.getLsbD 0 = true) ∧
    (ErrorCode.sensorStall ∈ s.levels ↔ r.getLsbD 1 = true) ∧
    (ErrorCode.linkLoss ∈ s.levels → exec .rdthr s = .next (s.returnWord 0)) ∧
    (ErrorCode.sensorStall ∈ s.levels → exec .rdspd s = .next (s.returnWord 0))

/-! ### Read-outs (45_readout.md) -/

/-- R145: `NOP` returns 0 and changes no register, in every state. -/
def Obligations.NopReturnsZero : Prop :=
  ∀ s : State, exec .nop s = .next (s.returnWord 0)

/-- 20_memory.md R44: a two-byte value is big-endian, at any index, even or odd (R47). -/
def Obligations.TwoByteValuesAreBigEndian : Prop :=
  ∀ (f : Memory) (k : Config.params.PairOffset) (i j : FrameIndex), i.val = k.val → j.val = k.val + 1 →
    (pairAt f k).toNat = (Memory.read f i).toNat * 256 + (Memory.read f j).toNat

/-- R146, R147, 30_encoding.md R59: what `RDPAR` returns for each field, in every state, from the bytes of
`pframe` at the (open) offsets of the frame layout (log entry 2). -/
def Obligations.RdparReturnsEachField : Prop :=
  ∀ s : State,
    let L := Config.layout
    let byte (k : Config.params.ByteOffset) : Nat := (byteAt s.pframe k).toNat
    let pair (k : Config.params.PairOffset) : Nat := (pairAt s.pframe k).toNat
    let returns (f : Field) (n : Nat) : Prop :=
      ∃ r : Word, exec (.rdpar f) s = .next (s.returnWord r) ∧ r.toNat = n
    returns .driveMode (byte L.offDriveMode) ∧ returns .gear (byte L.offGear) ∧
    returns .kickToStart (byte L.offKick) ∧ returns .magnetCount (byte L.offMagnets) ∧
    returns .wheelDiameterMm (pair L.offWheelDiam) ∧
    returns .pasSensitivity (byte L.offPasSens) ∧
    returns .pasStartIntensity (byte L.offPasStart) ∧
    returns .speedLimit (byte L.offSpeedLimit) ∧
    returns .currentLimit (byte L.offCurrentLimit) ∧
    returns .batteryCutoff (pair L.offBattCutoff) ∧
    returns .throttle (pair L.offThrottle % 1024) ∧
    returns .pasMagnets (byte L.offFlags % 16) ∧
    returns .cruise (byte L.offFlags / 64 % 2) ∧
    returns .ebrake (byte L.offFlags / 128 % 2)

/-- R148, 30_encoding.md R60: `RDFRM i` returns byte `i` of the latched frame for every index below 20; an
index of 20 or more is reserved and refused. -/
def Obligations.RdfrmReturnsTheLatchedByte : Prop :=
  ∀ (i : BitVec 5) (s : State),
    (∀ h : i.toNat < 20, ∃ r : Word, exec (.rdfrm i) s = .next (s.returnWord r) ∧
      r.toNat = (Memory.read s.pframe ⟨i.toNat, h⟩).toNat) ∧
    (20 ≤ i.toNat → exec (.rdfrm i) s = .refused (.reservedWord .reservedIndex))

/-- R149, 30_encoding.md R71: what `RDSTAT` returns in every state, as a number. -/
def Obligations.RdstatReturnsTheStatusWord : Prop :=
  ∀ s : State, ∃ r : Word, exec .rdstat s = .next (s.returnWord r) ∧
    r.toNat = s.link.cursor.val * 256
      + (if s.pulse.windowDuration = 0 ∨ 500 < age s.now s.pulse.windowStart then 2 else 0)
      + (if 1000 < age s.now s.link.lastValidTs then 1 else 0)

/-! ### Whole-machine rules -/

/-- 20_memory.md R50: the read operations change no state, and two of them in a row at the same clock
value return the same word. -/
def Obligations.ReadsChangeNothingAndRepeat : Prop :=
  ∀ i : Instr, (∀ b, i ≠ .rxb b) → i ≠ .tick → i ≠ .edge →
    ∀ s t : State, exec i s = .next t →
      ∃ r, t = s.returnWord r ∧ exec i t = .next (t.returnWord r)

/-- 10_state.md R35: the closed table of which register each operation may write. -/
def Obligations.WriteSetsAreClosed : Prop :=
  ∀ (i : Instr) (s t : State), exec i s = .next t →
    (i ≠ .edge → t.pulse = s.pulse) ∧
    ((∀ b, i ≠ .rxb b) → t.pframe = s.pframe ∧ t.replies = s.replies ∧
      t.link.rxbuf = s.link.rxbuf ∧ t.link.lastByteTs = s.link.lastByteTs ∧
      t.link.lastValidTs = s.link.lastValidTs ∧
      (i ≠ .tick → t.link.cursor = s.link.cursor)) ∧
    (∀ b, i = .rxb b → frameOutcome s.now b s.link ≠ .frameValid →
      t.pframe = s.pframe ∧ t.link.lastValidTs = s.link.lastValidTs)

/-- 60_exceptions.md R174: the two agents' write sets are disjoint: the poll side never writes
PulseTimingState, the edge side writes nothing else. -/
def Obligations.AgentsWriteDisjointRegisters : Prop :=
  ∀ (i : Instr) (s t : State), exec i s = .next t →
    (i.agent = .pollSide → t.pulse = s.pulse) ∧
    (i.agent = .edgeSide → t.link = s.link ∧ t.pframe = s.pframe)

/-- R160, 30_encoding.md R69: every admitted operation completes, in every state, with exactly one result
word; it takes no other input from the port and does not move the clock. -/
def Obligations.EveryAdmittedOperationCompletes : Prop :=
  ∀ (i : Instr) (s : State), i.wellFormed = true →
    ∃ t r, exec i s = .next t ∧ t.results = s.results ++ [r] ∧
      t.now = s.now ∧ t.pending = s.pending

/-- R160, R177: a step of a block on whose port no word is reserved answers a next state, on whose port no
word is reserved: no step takes the block out of the states in which it goes on. On a quiet port the
step is the idle one of log entry 4. -/
def Obligations.AdmittedStepsGoOn : Prop :=
  ∀ s : State, (∀ x ∈ s.pending, Admitted x) →
    ∃ t : State, step s = .next t ∧ ∀ x ∈ t.pending, Admitted x

/-- R160, R177: whatever the environment issues, so long as it issues no reserved word, the block never
stops: it keeps taking operations. Once the port is quiet the `n` steps count idle steps, which are
the model's choice (log entry 4). -/
def Obligations.AdmittedRunsNeverStop : Prop :=
  ∀ (n : Nat) (s : State), (∀ x ∈ s.pending, Admitted x) →
    ∃ t : State, Host.Core.run Sys2Proof.core n s = .next t ∧ t.pending = s.pending.drop n

/-- 00_scope.md R11, 70_reset_and_hazards.md R196, R197: elapsed time is modulo 2^32, so a clock that
steps back by `d` reads as an age of 2^32 - d, and a true elapsed time `e` of any length reads as
`e` modulo 2^32. -/
def Obligations.ElapsedTimeIsModular : Prop :=
  ∀ now t : Time,
    age now t = (now.toNat + (2 ^ 32 - t.toNat)) % 2 ^ 32 ∧
    (t.toNat ≤ now.toNat → age now t = now.toNat - t.toNat) ∧
    (∀ d : Nat, 0 < d → now.toNat + d = t.toNat → age now t = 2 ^ 32 - d) ∧
    ∀ e : Nat, age (BitVec.ofNat 32 (t.toNat + e)) t = e % 2 ^ 32
end

