-- ==== Sys2Proof/Laws/Config.lean ====
section
/-! SUPPORT. This hardware's parameters as numbers: one lemma per field of `Config.params`, so that no proof
unfolds the record. -/

namespace Sys2Proof

@[simp] theorem Config.params_frameLen : Config.params.frameLen = 20 := rfl
@[simp] theorem Config.params_replyLen : Config.params.replyLen = 14 := rfl
@[simp] theorem Config.params_pulsesHiIdx : Config.params.pulsesHiIdx = 8 := rfl
@[simp] theorem Config.params_pulsesLoIdx : Config.params.pulsesLoIdx = 9 := rfl
@[simp] theorem Config.params_replyCsumIdx : Config.params.replyCsumIdx = 13 := rfl
@[simp] theorem Config.params_debounceMs : Config.params.debounceMs = 1 := rfl
@[simp] theorem Config.params_pulsesPerWindow : Config.params.pulsesPerWindow = 10 := rfl
@[simp] theorem Config.params_staleMs : Config.params.staleMs = 500 := rfl
@[simp] theorem Config.params_speedMinX10 : Config.params.speedMinX10 = 10 := rfl
@[simp] theorem Config.params_speedMaxX10 : Config.params.speedMaxX10 = 990 := rfl
@[simp] theorem Config.params_stationaryPulses : Config.params.stationaryPulses = 0x1770 := rfl
@[simp] theorem Config.params_frameGapMs : Config.params.frameGapMs = 50 := rfl
@[simp] theorem Config.params_linkLossMs : Config.params.linkLossMs = 1000 := rfl
@[simp] theorem Config.params_throttleMax : Config.params.throttleMax = 1023 := rfl
@[simp] theorem Config.params_pwmMin : Config.params.pwmMin = 60 := rfl
@[simp] theorem Config.params_pwmMax : Config.params.pwmMax = 255 := rfl
@[simp] theorem Config.params_pwmFailsafe : Config.params.pwmFailsafe = 0 := rfl
@[simp] theorem Config.params_tsW : Config.params.tsW = 32 := rfl
@[simp] theorem Config.params_tickMs : Config.params.tickMs = 1 := rfl
@[simp] theorem Config.params_piNum : Config.params.piNum = 355 := rfl
@[simp] theorem Config.params_piDen : Config.params.piDen = 113 := rfl
@[simp] theorem Config.params_kmhX10 : Config.params.kmhX10 = 36 := rfl
@[simp] theorem Config.params_intervalMax : Config.params.intervalMax = 0xFFFF := rfl

@[simp] theorem Config.params_firstIndex : Config.params.firstIndex = 0 := rfl
@[simp] theorem Config.params_noEdges : Config.params.noEdges = 0 := rfl

/-- A frame begins at index 0, under every parameter set. -/
@[simp] theorem Params.firstIndex_val (P : Params) : P.firstIndex.val = 0 := rfl
@[simp] theorem Params.noEdges_val (P : Params) : P.noEdges.val = 0 := rfl

/-- The fields of every layout take 15 different bytes (30_encoding.md R62). -/
theorem Layout.taken_length {P : Params} (L : Layout P) :
    L.toOffsets.taken.length = 15 ∧ L.toOffsets.taken.Nodup := ⟨rfl, L.fields_disjoint⟩

/-- No field of any layout covers the checksum byte (00_scope.md R8). -/
theorem Layout.taken_below {P : Params} (L : Layout P) :
    ∀ k ∈ L.toOffsets.taken, k < P.frameLen - 1 := by
  simp only [Offsets.taken, List.mem_cons, List.not_mem_nil, or_false]
  omega

end Sys2Proof
end

