-- ==== Sys2Proof/Laws/Memory.lean ====
section
/-! SUPPORT. The laws of the byte spaces: a byte written reads back, every other byte stays, and the
canonical form is kept, so that equal contents are equal data. -/

namespace Sys2Proof.Machine

variable {P : Params} {n : Nat}

theorem Memory.wfFrom_cons (lo a : Nat) (b : Byte) (m : Memory) :
    Memory.wfFrom n lo ((a, b) :: m) = true ↔
      lo ≤ a ∧ a < n ∧ b ≠ Memory.unlisted ∧ Memory.wfFrom n (a + 1) m = true := by
  simp [Memory.wfFrom, and_assoc]

/-- A canonical tail may be read from any lower index on. -/
theorem Memory.wfFrom_mono {lo lo' : Nat} (h : lo' ≤ lo) :
    ∀ {m : Memory}, Memory.wfFrom n lo m = true → Memory.wfFrom n lo' m = true
  | [], _ => rfl
  | (_, _) :: _, hm => by
    rw [Memory.wfFrom_cons] at hm ⊢
    exact ⟨h.trans hm.1, hm.2⟩

/-- Below its first index a canonical list holds nothing. -/
theorem Memory.lookup_below {k : Nat} :
    ∀ {lo : Nat} {m : Memory}, Memory.wfFrom n lo m = true → k < lo →
      Memory.lookup m k = Memory.unlisted
  | _, [], _, _ => rfl
  | _, (a, b) :: m, hm, hk => by
    rw [Memory.wfFrom_cons] at hm
    have hne : a ≠ k := by omega
    simpa [Memory.lookup, hne] using Memory.lookup_below hm.2.2.2 (by omega)

/-- Writing at `k` keeps the canonical form. -/
theorem Memory.wfFrom_insert {k : Nat} (v : Byte) (hk : k < n) :
    ∀ {lo : Nat} {m : Memory}, lo ≤ k → Memory.wfFrom n lo m = true →
      Memory.wfFrom n lo (Memory.insert k v m) = true
  | lo, [], hlo, _ => by
    unfold Memory.insert
    split
    · rfl
    · rename_i hv
      simp [hlo, hk, hv, Memory.wfFrom]
  | lo, (a, b) :: m, hlo, hm => by
    have hm' := (Memory.wfFrom_cons ..).1 hm
    unfold Memory.insert
    split
    · rename_i hka
      split
      · exact hm
      · rename_i hv
        rw [Memory.wfFrom_cons, Memory.wfFrom_cons]
        exact ⟨hlo, hk, hv, by omega, hm'.2⟩
    · split
      · subst_vars
        split
        · exact Memory.wfFrom_mono (by omega) hm'.2.2.2
        · rename_i hv
          rw [Memory.wfFrom_cons]
          exact ⟨hlo, hk, hv, hm'.2.2.2⟩
      · rw [Memory.wfFrom_cons]
        exact ⟨hm'.1, hm'.2.1, hm'.2.2.1, Memory.wfFrom_insert v hk (by omega) hm'.2.2.2⟩

theorem Memory.lookup_insert_self {k : Nat} (v : Byte) :
    ∀ {lo : Nat} {m : Memory}, Memory.wfFrom n lo m = true →
      Memory.lookup (Memory.insert k v m) k = v
  | _, [], _ => by
    unfold Memory.insert
    split <;> simp_all [Memory.lookup]
  | _, (a, b) :: m, hm => by
    rw [Memory.wfFrom_cons] at hm
    unfold Memory.insert
    split
    · rename_i hka
      split
      · have hne : a ≠ k := by omega
        subst_vars
        simpa [Memory.lookup, hne] using Memory.lookup_below hm.2.2.2 (by omega)
      · simp [Memory.lookup]
    · split
      · subst_vars
        split
        · subst_vars
          exact Memory.lookup_below hm.2.2.2 (by omega)
        · simp [Memory.lookup]
      · rename_i hka
        have hne : a ≠ k := fun h => hka h.symm
        simpa [Memory.lookup, hne] using Memory.lookup_insert_self v hm.2.2.2

theorem Memory.lookup_insert_other {k j : Nat} (v : Byte) (hj : j ≠ k) :
    ∀ m : Memory, Memory.lookup (Memory.insert k v m) j = Memory.lookup m j
  | [] => by
    unfold Memory.insert
    split <;> simp [Memory.lookup, hj.symm]
  | (a, b) :: m => by
    have ih := Memory.lookup_insert_other v hj m
    unfold Memory.insert
    split
    · split <;> simp [Memory.lookup, hj.symm]
    · split
      · subst_vars
        split <;> simp [Memory.lookup, hj.symm]
      · simp only [Memory.lookup, ih]

@[simp] theorem Memory.wf_nil : Memory.wf P [] = true := rfl

/-- Every write keeps the canonical form. -/
theorem Memory.wf_write {m : Memory} (h : Memory.wf P m = true) (i : P.FrameIndex) (b : Byte) :
    Memory.wf P (Memory.write m i b) = true :=
  Memory.wfFrom_insert b i.isLt (Nat.zero_le _) h

@[simp] theorem Memory.read_nil (i : Fin n) : Memory.read [] i = 0 := rfl

/-- A byte written reads back. -/
theorem Memory.read_write_self {m : Memory} (h : Memory.wf P m = true) (i : P.FrameIndex) (b : Byte) :
    Memory.read (Memory.write m i b) i = b :=
  Memory.lookup_insert_self b h

/-- A write leaves every other byte alone, in canonical form or not. -/
theorem Memory.read_write_other (m : Memory) {i j : Fin n} (hij : j ≠ i) (b : Byte) :
    Memory.read (Memory.write m i b) j = Memory.read m j :=
  Memory.lookup_insert_other b (fun h => hij (Fin.ext h)) m

theorem Memory.eq_of_lookup :
    ∀ {lo : Nat} {m m' : Memory}, Memory.wfFrom n lo m = true → Memory.wfFrom n lo m' = true →
      (∀ k, k < n → Memory.lookup m k = Memory.lookup m' k) → m = m'
  | _, [], [], _, _, _ => rfl
  | _, [], (a, b) :: m, _, hm, h => by
    rw [Memory.wfFrom_cons] at hm
    have := h a hm.2.1
    simp only [Memory.lookup, if_true] at this
    exact absurd this.symm hm.2.2.1
  | _, (a, b) :: m, [], hm, _, h => by
    rw [Memory.wfFrom_cons] at hm
    have := h a hm.2.1
    simp only [Memory.lookup, if_true] at this
    exact absurd this hm.2.2.1
  | lo, (a, b) :: m, (a', b') :: m', hm, hm', h => by
    have w := (Memory.wfFrom_cons ..).1 hm
    have w' := (Memory.wfFrom_cons ..).1 hm'
    have haa : a = a' := by
      rcases Nat.lt_trichotomy a a' with hlt | heq | hgt
      · have h1 := h a w.2.1
        rw [Memory.lookup, if_pos rfl, Memory.lookup, if_neg (by omega),
          Memory.lookup_below w'.2.2.2 (by omega)] at h1
        exact absurd h1 w.2.2.1
      · exact heq
      · have h1 := h a' w'.2.1
        rw [Memory.lookup, if_neg (by omega), Memory.lookup, if_pos rfl,
          Memory.lookup_below w.2.2.2 (by omega)] at h1
        exact absurd h1.symm w'.2.2.1
    subst haa
    have hb : b = b' := by simpa [Memory.lookup] using h a w.2.1
    subst hb
    have ht : m = m' := by
      refine Memory.eq_of_lookup w.2.2.2 w'.2.2.2 fun k hk => ?_
      by_cases hak : a = k
      · subst hak
        rw [Memory.lookup_below w.2.2.2 (by omega), Memory.lookup_below w'.2.2.2 (by omega)]
      · simpa [Memory.lookup, hak] using h k hk
    rw [ht]

/-- Equal contents in canonical form are equal data. -/
theorem Memory.ext_of_read {m m' : Memory} (hm : Memory.wf P m = true) (hm' : Memory.wf P m' = true)
    (h : ∀ i : P.FrameIndex, Memory.read m i = Memory.read m' i) : m = m' :=
  Memory.eq_of_lookup hm hm' fun k hk => h ⟨k, hk⟩

@[simp] theorem Memory.length_bytes (m : Memory) : (Memory.bytes P m).length = P.frameLen := by
  simp [Memory.bytes]

theorem Memory.getElem_bytes (m : Memory) (i : P.FrameIndex) :
    (Memory.bytes P m)[i.val]'(by simp) = Memory.read m i := by
  simp only [Memory.bytes, List.getElem_ofFn]

theorem Memory.getElem?_bytes (m : Memory) (i : P.FrameIndex) :
    (Memory.bytes P m)[i.val]? = some (Memory.read m i) := by
  rw [List.getElem?_eq_getElem (by simp), Memory.getElem_bytes]

/-- The frame after a write: one byte replaced. -/
theorem Memory.bytes_write {m : Memory} (h : Memory.wf P m = true) (i : P.FrameIndex) (b : Byte) :
    Memory.bytes P (Memory.write m i b) = (Memory.bytes P m).set i.val b := by
  apply List.ext_getElem (by simp)
  intro n h1 h2
  have hn : n < P.frameLen := by simpa using h1
  rw [List.getElem_set]
  have e := Memory.getElem_bytes (P := P) (Memory.write m i b) ⟨n, hn⟩
  have e' := Memory.getElem_bytes (P := P) m ⟨n, hn⟩
  simp only at e e'
  by_cases hin : i.val = n
  · have hi : (⟨n, hn⟩ : P.FrameIndex) = i := Fin.ext hin.symm
    rw [e, hi, Memory.read_write_self h, if_pos hin]
  · rw [e, if_neg hin, e', Memory.read_write_other m (fun hc => hin (by rw [← hc])) b]

end Sys2Proof.Machine
end

