-- ==== Sys2Proof/Laws/State.lean ====
section
/-! SUPPORT. What each update of the state does to each field: one lemma per field per update, so that no
proof unfolds a record update. -/

namespace Sys2Proof.Machine

variable (s : State)

/-! ### setPulse -/

@[simp] theorem State.setPulse_pulse (p : PulseTiming Config.params) : (s.setPulse p).pulse = p := rfl
@[simp] theorem State.setPulse_link (p : PulseTiming Config.params) : (s.setPulse p).link = s.link := rfl
@[simp] theorem State.setPulse_pframe (p : PulseTiming Config.params) : (s.setPulse p).pframe = s.pframe := rfl
@[simp] theorem State.setPulse_now (p : PulseTiming Config.params) : (s.setPulse p).now = s.now := rfl
@[simp] theorem State.setPulse_pending (p : PulseTiming Config.params) : (s.setPulse p).pending = s.pending := rfl
@[simp] theorem State.setPulse_results (p : PulseTiming Config.params) : (s.setPulse p).results = s.results := rfl
@[simp] theorem State.setPulse_replies (p : PulseTiming Config.params) : (s.setPulse p).replies = s.replies := rfl

/-! ### setLink -/

@[simp] theorem State.setLink_pulse (l : LinkState Config.params) : (s.setLink l).pulse = s.pulse := rfl
@[simp] theorem State.setLink_link (l : LinkState Config.params) : (s.setLink l).link = l := rfl
@[simp] theorem State.setLink_pframe (l : LinkState Config.params) : (s.setLink l).pframe = s.pframe := rfl
@[simp] theorem State.setLink_now (l : LinkState Config.params) : (s.setLink l).now = s.now := rfl
@[simp] theorem State.setLink_pending (l : LinkState Config.params) : (s.setLink l).pending = s.pending := rfl
@[simp] theorem State.setLink_results (l : LinkState Config.params) : (s.setLink l).results = s.results := rfl
@[simp] theorem State.setLink_replies (l : LinkState Config.params) : (s.setLink l).replies = s.replies := rfl

/-! ### setPframe -/

@[simp] theorem State.setPframe_pulse (f : Memory) : (s.setPframe f).pulse = s.pulse := rfl
@[simp] theorem State.setPframe_link (f : Memory) : (s.setPframe f).link = s.link := rfl
@[simp] theorem State.setPframe_pframe (f : Memory) : (s.setPframe f).pframe = f := rfl
@[simp] theorem State.setPframe_now (f : Memory) : (s.setPframe f).now = s.now := rfl
@[simp] theorem State.setPframe_pending (f : Memory) : (s.setPframe f).pending = s.pending := rfl
@[simp] theorem State.setPframe_results (f : Memory) : (s.setPframe f).results = s.results := rfl
@[simp] theorem State.setPframe_replies (f : Memory) : (s.setPframe f).replies = s.replies := rfl

/-! ### emitReply -/

@[simp] theorem State.emitReply_pulse (f : List Byte) : (s.emitReply f).pulse = s.pulse := rfl
@[simp] theorem State.emitReply_link (f : List Byte) : (s.emitReply f).link = s.link := rfl
@[simp] theorem State.emitReply_pframe (f : List Byte) : (s.emitReply f).pframe = s.pframe := rfl
@[simp] theorem State.emitReply_now (f : List Byte) : (s.emitReply f).now = s.now := rfl
@[simp] theorem State.emitReply_pending (f : List Byte) : (s.emitReply f).pending = s.pending := rfl
@[simp] theorem State.emitReply_results (f : List Byte) : (s.emitReply f).results = s.results := rfl
@[simp] theorem State.emitReply_replies (f : List Byte) : (s.emitReply f).replies = s.replies ++ [f] := rfl

/-! ### returnWord -/

@[simp] theorem State.returnWord_pulse (r : Word) : (s.returnWord r).pulse = s.pulse := rfl
@[simp] theorem State.returnWord_link (r : Word) : (s.returnWord r).link = s.link := rfl
@[simp] theorem State.returnWord_pframe (r : Word) : (s.returnWord r).pframe = s.pframe := rfl
@[simp] theorem State.returnWord_now (r : Word) : (s.returnWord r).now = s.now := rfl
@[simp] theorem State.returnWord_pending (r : Word) : (s.returnWord r).pending = s.pending := rfl
@[simp] theorem State.returnWord_results (r : Word) : (s.returnWord r).results = s.results ++ [r] := rfl
@[simp] theorem State.returnWord_replies (r : Word) : (s.returnWord r).replies = s.replies := rfl

/-! ### accept -/

@[simp] theorem State.accept_pulse (t : Time) (rest : List Input) : (s.accept t rest).pulse = s.pulse := rfl
@[simp] theorem State.accept_link (t : Time) (rest : List Input) : (s.accept t rest).link = s.link := rfl
@[simp] theorem State.accept_pframe (t : Time) (rest : List Input) : (s.accept t rest).pframe = s.pframe := rfl
@[simp] theorem State.accept_now (t : Time) (rest : List Input) : (s.accept t rest).now = t := rfl
@[simp] theorem State.accept_pending (t : Time) (rest : List Input) : (s.accept t rest).pending = rest := rfl
@[simp] theorem State.accept_results (t : Time) (rest : List Input) : (s.accept t rest).results = s.results := rfl
@[simp] theorem State.accept_replies (t : Time) (rest : List Input) : (s.accept t rest).replies = s.replies := rfl

/-! ### resetBlock -/

@[simp] theorem resetBlock_pulse (t : Time) : (resetBlock t s).pulse = PulseTiming.resetAt t := rfl
@[simp] theorem resetBlock_link (t : Time) : (resetBlock t s).link = LinkState.resetAt t := rfl
@[simp] theorem resetBlock_pframe (t : Time) : (resetBlock t s).pframe = [] := rfl
@[simp] theorem resetBlock_now (t : Time) : (resetBlock t s).now = t := rfl
@[simp] theorem resetBlock_pending (t : Time) : (resetBlock t s).pending = s.pending := rfl
@[simp] theorem resetBlock_results (t : Time) : (resetBlock t s).results = s.results := rfl
@[simp] theorem resetBlock_replies (t : Time) : (resetBlock t s).replies = s.replies := rfl

/-! ### latchFrame -/

@[simp] theorem latchFrame_pulse : (latchFrame s).pulse = s.pulse := rfl
@[simp] theorem latchFrame_link : (latchFrame s).link = { s.link with lastValidTs := s.now } := rfl
@[simp] theorem latchFrame_pframe : (latchFrame s).pframe = s.link.rxbuf := rfl
@[simp] theorem latchFrame_now : (latchFrame s).now = s.now := rfl
@[simp] theorem latchFrame_pending : (latchFrame s).pending = s.pending := rfl
@[simp] theorem latchFrame_results : (latchFrame s).results = s.results := rfl
@[simp] theorem latchFrame_replies : (latchFrame s).replies = s.replies := rfl

/-! ### sendReply -/

@[simp] theorem sendReply_pulse : (sendReply s).pulse = s.pulse := rfl
@[simp] theorem sendReply_link : (sendReply s).link = s.link := rfl
@[simp] theorem sendReply_pframe : (sendReply s).pframe = s.pframe := rfl
@[simp] theorem sendReply_now : (sendReply s).now = s.now := rfl
@[simp] theorem sendReply_pending : (sendReply s).pending = s.pending := rfl
@[simp] theorem sendReply_results : (sendReply s).results = s.results := rfl
@[simp] theorem sendReply_replies : (sendReply s).replies = s.replies ++ [encodeReply Config.params (BitVec.ofNat 16 (s.pulses Config.layout))] := rfl

/-! ### The sub-records -/

variable {P : Params}

@[simp] theorem PulseTiming.resetAt_edgeCount (t : P.Time) : (PulseTiming.resetAt t).edgeCount = P.noEdges := rfl
@[simp] theorem PulseTiming.resetAt_windowStart (t : P.Time) : (PulseTiming.resetAt t).windowStart = t := rfl
@[simp] theorem PulseTiming.resetAt_lastEdge (t : P.Time) : (PulseTiming.resetAt t).lastEdge = t := rfl
@[simp] theorem PulseTiming.resetAt_windowDuration (t : P.Time) :
    (PulseTiming.resetAt t).windowDuration = 0 := rfl

@[simp] theorem LinkState.resetAt_cursor (t : P.Time) : (LinkState.resetAt t).cursor = P.firstIndex := rfl
@[simp] theorem LinkState.resetAt_rxbuf (t : P.Time) : (LinkState.resetAt t).rxbuf = [] := rfl
@[simp] theorem LinkState.resetAt_lastByteTs (t : P.Time) : (LinkState.resetAt t).lastByteTs = t := rfl
@[simp] theorem LinkState.resetAt_lastValidTs (t : P.Time) : (LinkState.resetAt t).lastValidTs = t := rfl

@[simp] theorem discardPartial_cursor (l : LinkState P) : (discardPartial l).cursor = P.firstIndex := rfl
@[simp] theorem discardPartial_rxbuf (l : LinkState P) : (discardPartial l).rxbuf = l.rxbuf := rfl
@[simp] theorem discardPartial_lastByteTs (l : LinkState P) :
    (discardPartial l).lastByteTs = l.lastByteTs := rfl
@[simp] theorem discardPartial_lastValidTs (l : LinkState P) :
    (discardPartial l).lastValidTs = l.lastValidTs := rfl

@[simp] theorem storeByte_cursor (t : P.Time) (b : Byte) (l : LinkState P) :
    (storeByte t b l).cursor = cursorAfter (storeIndex t l) := rfl
@[simp] theorem storeByte_rxbuf (t : P.Time) (b : Byte) (l : LinkState P) :
    (storeByte t b l).rxbuf = Memory.write l.rxbuf (storeIndex t l) b := rfl
@[simp] theorem storeByte_lastByteTs (t : P.Time) (b : Byte) (l : LinkState P) :
    (storeByte t b l).lastByteTs = t := rfl
@[simp] theorem storeByte_lastValidTs (t : P.Time) (b : Byte) (l : LinkState P) :
    (storeByte t b l).lastValidTs = l.lastValidTs := rfl

end Sys2Proof.Machine
end

