-- ==== Sys2Proof/Laws/Ops.lean ====
section
/-! SUPPORT. What each shared operation can do, said once: the checksum, the cursor, a stored byte, a
sensor transition, taking the next input, and one step. -/

namespace Sys2Proof.Machine

/-! ### The checksum -/

@[simp] theorem xorAll_nil : xorAll [] = 0 := rfl

@[simp] theorem xorAll_cons (b : Byte) (bs : List Byte) : xorAll (b :: bs) = b ^^^ xorAll bs := rfl

theorem xorAll_append (bs cs : List Byte) : xorAll (bs ++ cs) = xorAll bs ^^^ xorAll cs := by
  induction bs with
  | nil => simp
  | cons b bs ih => simp [ih, BitVec.xor_assoc]

/-- A checksum appended to its payload. -/
theorem checksumOk_append (bs : List Byte) (c : Byte) :
    checksumOk (bs ++ [c]) = true ↔ c = xorAll bs := by
  simp [checksumOk, xsum]

/-! ### The clock -/

/-- With this hardware's tick an age in ms is the age. -/
@[simp] theorem ageMs_eq (now t : Time) : ageMs Config.params now t = age now t :=
  Nat.mul_one _

/-! ### Cursor and stored byte -/

section

variable {P : Params} {t : P.Time} {b : Byte} {l : LinkState P}

theorem cursorAfter_of_lt {k : P.FrameIndex} (h : k.val + 1 < P.frameLen) :
    cursorAfter k = ⟨k.val + 1, h⟩ := by
  simp [cursorAfter, h]

theorem cursorAfter_last {k : P.FrameIndex} (h : k.val + 1 = P.frameLen) :
    cursorAfter k = P.firstIndex := by
  simp [cursorAfter, h]

theorem storeIndex_of_silence (h : silenceExpired t l = true) : storeIndex t l = P.firstIndex := by
  simp [storeIndex, h]

theorem storeIndex_of_no_silence (h : silenceExpired t l = false) : storeIndex t l = l.cursor := by
  simp [storeIndex, h]

/-- With no partial frame the silence test cannot fire. -/
theorem silenceExpired_of_cursor_zero (h : l.cursor.val = 0) : silenceExpired t l = false := by
  simp [silenceExpired, h]

/-- A stored byte keeps the receive buffer canonical. -/
theorem storeByte_wf (h : Memory.wf P l.rxbuf = true) :
    Memory.wf P (storeByte t b l).rxbuf = true :=
  Memory.wf_write h _ _

/-- The three things a stored byte can do to the frame. -/
theorem frameOutcome_cases_of (t : P.Time) (b : Byte) (l : LinkState P) :
    (frameOutcome t b l = .incomplete ∧ (storeIndex t l).val + 1 < P.frameLen) ∨
    (frameOutcome t b l = .frameValid ∧ (storeIndex t l).val + 1 = P.frameLen ∧
      checksumOk (Memory.bytes P (storeByte t b l).rxbuf) = true) ∨
    (frameOutcome t b l = .checksumMismatch ∧ (storeIndex t l).val + 1 = P.frameLen ∧
      checksumOk (Memory.bytes P (storeByte t b l).rxbuf) = false) := by
  have hk := (storeIndex t l).isLt
  unfold frameOutcome
  split
  · split
    · rename_i h1 h2
      exact .inr (.inl ⟨rfl, h1, h2⟩)
    · rename_i h1 h2
      exact .inr (.inr ⟨rfl, h1, by simpa using h2⟩)
  · rename_i h
    exact .inl ⟨rfl, by omega⟩

end

/-! ### The sensor transition -/

/-- The three things a sensor transition can do to PulseTimingState. -/
theorem takeEdge_cases_of {P : Params} (t : P.Time) (p : PulseTiming P) :
    (ageMs P t p.lastEdge < P.debounceMs ∧ takeEdge t p = (p, edgeWord false false)) ∨
    (P.debounceMs ≤ ageMs P t p.lastEdge ∧ ∃ h : p.edgeCount.val + 1 < P.pulsesPerWindow,
      takeEdge t p =
        (⟨⟨p.edgeCount.val + 1, h⟩, p.windowStart, t, p.windowDuration⟩, edgeWord true false)) ∨
    (P.debounceMs ≤ ageMs P t p.lastEdge ∧ p.edgeCount.val + 1 = P.pulsesPerWindow ∧
      takeEdge t p = (⟨P.noEdges, t, t, t - p.windowStart⟩, edgeWord true true)) := by
  have hk := p.edgeCount.isLt
  unfold takeEdge bounces
  split
  · rename_i h
    exact .inl ⟨by simpa using h, rfl⟩
  · rename_i h
    have ha : P.debounceMs ≤ ageMs P t p.lastEdge := by simpa using h
    split
    · rename_i h2
      exact .inr (.inl ⟨ha, h2, rfl⟩)
    · exact .inr (.inr ⟨ha, by omega, rfl⟩)

/-! ### The same with this hardware's numbers -/

section

variable (t : Time) (b : Byte) (l : LinkState Config.params) (p : PulseTiming Config.params)

theorem bounces_iff : bounces t p = true ↔ age t p.lastEdge < 1 := by simp [bounces]

theorem stale_iff : stale t p = true ↔ 500 < age t p.windowStart := by simp [stale]

theorem silenceExpired_iff :
    silenceExpired t l = true ↔ l.cursor.val ≠ 0 ∧ 50 < age t l.lastByteTs := by
  simp [silenceExpired]

theorem failsafe_iff : failsafe t l = true ↔ 1000 < age t l.lastValidTs := by simp [failsafe]

theorem stalled_iff :
    stalled t p = true ↔ p.windowDuration = 0 ∨ 500 < age t p.windowStart := by
  simp [stalled, stale, BitVec.toNat_eq]

/-- Where a byte goes: index 0 after a silence, the cursor otherwise. -/
theorem storeIndex_eq : storeIndex t l = if silenceExpired t l then 0 else l.cursor := rfl

theorem frameOutcome_cases :
    (frameOutcome t b l = .incomplete ∧ (storeIndex t l).val + 1 < 20) ∨
    (frameOutcome t b l = .frameValid ∧ (storeIndex t l).val + 1 = 20 ∧
      checksumOk (Memory.bytes Config.params (storeByte t b l).rxbuf) = true) ∨
    (frameOutcome t b l = .checksumMismatch ∧ (storeIndex t l).val + 1 = 20 ∧
      checksumOk (Memory.bytes Config.params (storeByte t b l).rxbuf) = false) :=
  frameOutcome_cases_of t b l

theorem takeEdge_cases :
    (age t p.lastEdge < 1 ∧ takeEdge t p = (p, edgeWord false false)) ∨
    (1 ≤ age t p.lastEdge ∧ ∃ h : p.edgeCount.val + 1 < 10,
      takeEdge t p =
        (⟨⟨p.edgeCount.val + 1, h⟩, p.windowStart, t, p.windowDuration⟩, edgeWord true false)) ∨
    (1 ≤ age t p.lastEdge ∧ p.edgeCount.val + 1 = 10 ∧
      takeEdge t p = (⟨0, t, t, t - p.windowStart⟩, edgeWord true true)) := by
  simpa only [ageMs_eq, Config.params_debounceMs, Config.params_noEdges] using takeEdge_cases_of t p

/-- A speed below the floor reads 0 and one above the ceiling 990. -/
theorem clampSpeed_eq (r : Nat) :
    clampSpeed Config.params r = if r < 10 then 0 else if 990 < r then 990 else r := rfl

theorem speedRaw_eq (D M T : Nat) :
    speedRaw Config.params D M T = 36 * 355 * D * 10 / (113 * M * T) := rfl

theorem intervalOf_eq (s D : Nat) :
    intervalOf Config.params s D = min 0xFFFF (36 * 355 * D / (113 * s)) := rfl

theorem speedOf_eq (D M : Nat) :
    speedOf t p D M = if stalled t p then 0 else if M = 0 then 0
      else clampSpeed Config.params (speedRaw Config.params D M p.windowDuration.toNat) := by
  simp [speedOf]

theorem throttleMap_eq (x : Nat) : throttleMap Config.params x = 60 + 195 * x / 1023 := rfl

end

/-! ### Taking the next input, and one step -/

@[simp] theorem fetch_idle {s : State} (h : s.pending = []) : fetch s = .idle := by
  simp [fetch, h]

@[simp] theorem fetch_reset {s : State} {t : Time} {rest : List Input}
    (h : s.pending = .reset t :: rest) : fetch s = .reset t (s.accept t rest) := by
  simp [fetch, h]

theorem fetch_op {s : State} {tr : Transaction} {rest : List Input}
    (h : s.pending = .op tr :: rest) : fetch s = fetchTransaction tr rest s := by
  simp [fetch, h]

/-- Everything one step that answers a next state can have done. -/
theorem step_cases {s s' : State} (h : step s = .next s') :
    (s.pending = [] ∧ s' = s) ∨
    (∃ t rest, s.pending = .reset t :: rest ∧ s' = resetBlock t (s.accept t rest)) ∨
    (∃ tr rest i, s.pending = .op tr :: rest ∧ decode tr.word = .ok i ∧
      exec i (s.accept tr.now rest) = .next s') := by
  unfold step at h
  cases hp : s.pending with
  | nil =>
    rw [fetch_idle hp] at h
    exact .inl ⟨rfl, by simpa using h.symm⟩
  | cons input rest =>
    cases input with
    | reset t =>
      rw [fetch_reset hp] at h
      exact .inr (.inl ⟨t, rest, rfl, by simpa using h.symm⟩)
    | op tr =>
      rw [fetch_op hp] at h
      unfold fetchTransaction at h
      cases hd : decode tr.word with
      | error e => simp [hd] at h
      | ok i => exact .inr (.inr ⟨tr, rest, i, rfl, hd, by simpa [hd] using h⟩)

/-- Completing an operation always answers a next state, one result word richer. -/
@[simp] theorem complete_eq (s : State) (r : Word) : complete s r = .next (s.returnWord r) := rfl

end Sys2Proof.Machine
end

