-- ==== Sys2Proof/Laws/PerInstr.lean ====
section
/-! SUPPORT. Statements made per instruction: an operation's word is of its row of
spec/opcode_table.json. -/

namespace Sys2Proof.Laws.EncodesRow

/-- The encoded word has the row's fixed bits (30_encoding.md R57). -/
def Statement (i : Instr) : Prop := encode i &&& i.row.mask = i.row.pattern

theorem nop : Statement .nop := rfl
theorem tick : Statement .tick := rfl
theorem rxb (b : Byte) : Statement (.rxb b) := by revert b; unfold Statement; decide
theorem edge : Statement .edge := rfl
theorem rdspd : Statement .rdspd := rfl
theorem rdpul : Statement .rdpul := rfl
theorem rdthr : Statement .rdthr := rfl
theorem rdstat : Statement .rdstat := rfl
theorem rdpar (f : Field) : Statement (.rdpar f) := by cases f <;> rfl
theorem rdfrm (i : BitVec 5) : Statement (.rdfrm i) := by revert i; unfold Statement; decide

end Sys2Proof.Laws.EncodesRow
end

