-- ==== Sys2Proof/Laws/Run.lean ====
section
/-! SUPPORT. Runs of the machine behind the host's interface, one step at a time, and the step of an
encoded operation. -/

namespace Sys2Proof.Machine

/-- A run of one step more. -/
theorem run_succ_of_next (n : Nat) {s s' : State} (h : step s = .next s') :
    Host.Core.run Sys2Proof.core (n + 1) s = Host.Core.run Sys2Proof.core n s' := by
  have hc : Sys2Proof.core.step s = .next s' := h
  simp only [Host.Core.run, hc]

/-- The step of a transaction whose word decodes. -/
theorem step_of_decode {s : State} {tr : Transaction} {rest : List Input} {i : Instr}
    (hp : s.pending = .op tr :: rest) (hd : decode tr.word = .ok i) :
    step s = exec i (s.accept tr.now rest) := by
  simp only [step, fetch_op hp, fetchTransaction, hd]

end Sys2Proof.Machine
end

