-- ==== Sys2Proof/Tests/Slice0.lean ====
section
/-! SUPPORT. The model's own tests: words written out from the spec's encodings, single steps whose
expected results come from the spec's rules and from 95_test_vectors.md, and for every statement
with hypotheses a witness that they can be met. -/

namespace Sys2Proof.Tests

open Sys2Proof.Machine Sys2Proof.Safety

/-! ### Small states -/

/-- The offset of a single-byte field, as a number. -/
def byteOff (k : Fin 19) : Config.params.ByteOffset := k

/-- The offset of a two-byte field, as a number. -/
def pairOff (k : Fin 18) : Config.params.PairOffset := k

/-- The test layout TP1 of 95_test_vectors.md section 0; it is no claim about the hardware. -/
def tp1 : Layout Config.params where
  toOffsets := ⟨byteOff 2, byteOff 3, byteOff 4, byteOff 5, pairOff 6, byteOff 8, byteOff 9,
    byteOff 10, byteOff 11, pairOff 12, pairOff 14, byteOff 16⟩
  fields_disjoint := by decide

/-- A byte space from its bytes. -/
def space (bs : List Byte) : Memory :=
  (bs.zipIdx.map fun (b, i) => (i, b)).filter fun c => c.2 ≠ 0

/-- The frame F1 of 95_test_vectors.md. -/
def f1 : List Byte :=
  [0x01, 0x14, 0x01, 0x03, 0x00, 0x01, 0x02, 0x8A, 0x02, 0x03,
   0x19, 0x0F, 0x09, 0x60, 0x03, 0xFF, 0x4C, 0x00, 0x00, 0x50]

/-- Twenty bytes 0x01: a valid frame whose every field is known under every layout. -/
def ones : Memory := space (List.replicate 20 1)

/-- Reset at 0, with the clock now at `t`. -/
def at' (t : Time) : State := { State.reset with now := t }

/-- `at' t` with LinkState given. -/
def linked (t : Time) (cursor : FrameIndex) (buf : Memory) (lastByte lastValid : Time) : State :=
  { at' t with link := ⟨cursor, buf, lastByte, lastValid⟩ }

/-- `at' t` with PulseTimingState given. -/
def timed (t : Time) (count : Config.params.EdgeCount) (start last duration : Time) : State :=
  { at' t with pulse := ⟨count, start, last, duration⟩ }

/-- Nineteen bytes of F1 received, the last at 0. -/
def nearlyF1 (t : Time) : State := linked t 19 (space (f1.take 19)) 0 0

/-- A window of `duration` ms closed at 1000, and a frame of ones latched: magnet count 1, wheel diameter
257 mm, under every layout. -/
def rolling (t duration : Time) : State :=
  { timed t 0 1000 1000 duration with pframe := ones }

theorem ones_magnets (t duration : Time) :
    ((rolling t duration).params Config.layout).magnetCount = 1 := by
  have h : ∀ k : Config.params.ByteOffset, byteAt ones k = 1 := by decide
  exact h _

theorem ones_wheel (t duration : Time) :
    ((rolling t duration).params Config.layout).wheelDiameterMm = 257 := by
  have h : ∀ k : Config.params.PairOffset, pairAt ones k = 257 := by decide
  exact h _

/-! ### The parameters (00_scope.md R7) and the layout (30_encoding.md R62) -/

theorem test_template : Config.params.replyTemplate =
    [0x02, 0x0E, 0x01, 0x00, 0x80, 0x00, 0x00, 0x00, 0x00, 0x50, 0x00, 0x00, 0xFF, 0x00] := rfl

/-- Another parameter set changes what the semantics computes: a debounce of 5 units of 2 ms discards an
edge after 2 units and takes one after 3. -/
theorem test_parameters_are_read :
    let P : Params := { debounceMs := 5, tickMs := 2, tsW := 16 }
    bounces (P := P) 12 ⟨0, 0, 10, 0⟩ = true ∧ bounces (P := P) 13 ⟨0, 0, 10, 0⟩ = false := by decide

/-- Layouts in which two fields share a byte are refused: a byte on a byte, a byte on a pair's second. -/
theorem test_overlapping_offsets_are_refused :
    ¬ ({ tp1.toOffsets with offGear := byteOff 2 } : Offsets Config.params).taken.Nodup ∧
    ¬ ({ tp1.toOffsets with offGear := byteOff 7 } : Offsets Config.params).taken.Nodup := by decide

/-! ### WellFormed: the one check refuses an ill-formed term (30_encoding.md R60) -/

theorem test_wellFormed_rdfrm_refuses_20 : (Instr.rdfrm 20).wellFormed = false := by decide
theorem test_wellFormed_rdfrm_accepts_19 : (Instr.rdfrm 19).wellFormed = true := by decide

/-! ### Decoding: words written out from R57; reserved words from 95_test_vectors.md 2.9 -/

theorem test_decode_nop : decode 0b0000000000000000 = .ok .nop := by decide
theorem test_decode_tick : decode 0b0001000000000000 = .ok .tick := by decide
theorem test_decode_rxb : decode 0b0010000001010000 = .ok (.rxb 0x50) := by decide
theorem test_decode_edge : decode 0b0011000000000000 = .ok .edge := by decide
theorem test_decode_rdspd : decode 0b0100000000000000 = .ok .rdspd := by decide
theorem test_decode_rdpul : decode 0b0101000000000000 = .ok .rdpul := by decide
theorem test_decode_rdthr : decode 0b0110000000000000 = .ok .rdthr := by decide
theorem test_decode_rdstat : decode 0b0111000000000000 = .ok .rdstat := by decide
theorem test_decode_rdpar : decode 0b1000110100000000 = .ok (.rdpar .ebrake) := by decide
theorem test_decode_rdfrm : decode 0b1001000000010011 = .ok (.rdfrm 19) := by decide

theorem test_reserved_unused_fields :
    decode 0x0001 = .error .unusedFieldNonzero ∧ decode 0x0100 = .error .unusedFieldNonzero ∧
    decode 0x1001 = .error .unusedFieldNonzero ∧ decode 0x2100 = .error .unusedFieldNonzero ∧
    decode 0x3080 = .error .unusedFieldNonzero ∧ decode 0x4100 = .error .unusedFieldNonzero ∧
    decode 0x7001 = .error .unusedFieldNonzero ∧ decode 0x8401 = .error .unusedFieldNonzero ∧
    decode 0x9020 = .error .unusedFieldNonzero ∧ decode 0x9100 = .error .unusedFieldNonzero := by
  decide

theorem test_reserved_operands :
    decode 0x8E00 = .error .reservedField ∧ decode 0x8F00 = .error .reservedField ∧
    decode 0x9014 = .error .reservedIndex ∧ decode 0x901F = .error .reservedIndex ∧
    decode 0xA000 = .error .reservedOpcode ∧ decode 0xF0FF = .error .reservedOpcode := by
  decide

theorem test_decodeTableWord_rxb : decodeTableWord 16 0x20AA = some (.rxb 0xAA) := by decide
theorem test_decodeTableWord_reserved : decodeTableWord 16 0xA000 = none := by decide

/-- The rows of the opcode table do not overlap. -/
theorem test_rows_disjoint :
    ([Instr.nop, .tick, .rxb 0, .edge, .rdspd, .rdpul, .rdthr, .rdstat, .rdpar .gear,
      .rdfrm 0].map Instr.row).Pairwise
      (fun a b => a.pattern &&& a.mask &&& b.mask ≠ b.pattern &&& a.mask &&& b.mask) := by
  decide

/-! ### EDGE (95_test_vectors.md 2.2) -/

theorem test_edge_in_the_reset_ms_is_discarded :
    takeEdge (P := Config.params) 0 (PulseTiming.resetAt 0) = (PulseTiming.resetAt 0, 0) := by decide
theorem test_edge_closes_at_the_tenth :
    takeEdge (P := Config.params) 1000 ⟨9, 0, 900, 0⟩ = (⟨0, 1000, 1000, 1000⟩, 3) := by decide
theorem test_edge_after_a_backward_clock_counts :
    takeEdge (P := Config.params) 99 ⟨1, 0, 100, 0⟩ = (⟨2, 0, 99, 0⟩, 1) := by decide

/-! ### SPEED, INTERVAL, PULSES (95_test_vectors.md 2.3) -/

theorem test_speed_source_scenario : speedOf (P := Config.params) 1500 ⟨0, 1000, 1000, 1000⟩ 650 1 = 735 := by decide
theorem test_speed_stale_after_501 : speedOf (P := Config.params) 1501 ⟨0, 1000, 1000, 1000⟩ 650 1 = 0 := by decide
theorem test_speed_floor_and_ceiling :
    clampSpeed Config.params (speedRaw Config.params 650 1 73513) = 10 ∧ clampSpeed Config.params (speedRaw Config.params 650 1 73514) = 0 ∧
    clampSpeed Config.params (speedRaw Config.params 650 1 742) = 990 ∧ clampSpeed Config.params (speedRaw Config.params 650 1 741) = 990 ∧
    clampSpeed Config.params (speedRaw Config.params 650 1 743) = 989 := by decide
theorem test_interval_saturates :
    intervalOf Config.params 10 65535 = 65535 ∧ intervalOf Config.params 990 8 = 0 ∧ intervalOf Config.params 735 650 = 100 ∧
    intervalOf Config.params 659 700 = 120 := by decide
theorem test_pulses_sentinel : pulsesOf Config.params 0 650 = 0x1770 := by decide

/-! ### The framer (95_test_vectors.md 2.1, 2.4, 2.5) -/

theorem test_checksum_f1 : checksumOk f1 = true := by decide
theorem test_checksum_f1bad : checksumOk (f1.set 19 0x51) = false := by decide
theorem test_reply_0x1770 :
    encodeReply Config.params 0x1770 = [0x02, 0x0E, 0x01, 0x00, 0x80, 0x00, 0x00, 0x00, 0x17, 0x70, 0x00, 0x00,
      0xFF, 0x15] := by decide
theorem test_reply_0x1D3E :
    encodeReply Config.params 0x1D3E = [0x02, 0x0E, 0x01, 0x00, 0x80, 0x00, 0x00, 0x00, 0x1D, 0x3E, 0x00, 0x00,
      0xFF, 0x51] := by decide

theorem test_rxb_completes_f1 :
    ∃ t, exec (.rxb 0x50) (nearlyF1 50) = .next t ∧ t.results = [1] ∧ t.link.cursor = 0 ∧
      Memory.bytes Config.params t.pframe = f1 ∧ t.link.lastValidTs = 50 ∧ t.replies.length = 1 :=
  ⟨_, rfl, by decide⟩
theorem test_rxb_after_51_ms_restarts :
    ∃ t, exec (.rxb 0x50) (nearlyF1 51) = .next t ∧ t.results = [4] ∧ t.link.cursor = 1 ∧
      Memory.read t.link.rxbuf (0 : FrameIndex) = 0x50 ∧ t.pframe = [] ∧ t.replies = [] :=
  ⟨_, rfl, by decide⟩

/-! ### TICK and RDTHR (95_test_vectors.md 2.6, 2.7) -/

theorem test_tick_50_ms_keeps :
    exec .tick (linked 60 1 [] 10 0) = .next { linked 60 1 [] 10 0 with results := [0] } := by rfl
theorem test_tick_across_the_wrap :
    exec .tick (linked 0x23 3 [] 0xFFFFFFF0 0)
      = .next { linked 0x23 0 [] 0xFFFFFFF0 0 with results := [4] } := by rfl
theorem test_throttle_map :
    [0, 1, 5, 6, 511, 512, 1022, 1023].map (throttleMap Config.params) = [60, 60, 60, 61, 157, 157, 254, 255] := by
  decide
theorem test_failsafe_boundary :
    failsafe (P := Config.params) 0x2E8 ⟨0, [], 0, 0xFFFFFF00⟩ = false ∧ failsafe (P := Config.params) 0x2E9 ⟨0, [], 0, 0xFFFFFF00⟩ = true := by
  decide

/-! ### Read-outs (95_test_vectors.md 2.8) -/

theorem test_params_of_f1 :
    let p := decodeParams tp1 (space f1)
    [Field.driveMode, .gear, .kickToStart, .magnetCount, .wheelDiameterMm, .pasSensitivity,
      .pasStartIntensity, .speedLimit, .currentLimit, .batteryCutoff, .throttle, .pasMagnets,
      .cruise, .ebrake].map p.field
      = [1, 3, 0, 1, 650, 2, 3, 25, 15, 2400, 1023, 12, 1, 0] := by decide
theorem test_rdfrm_19_is_the_checksum :
    exec (.rdfrm 19) { State.reset with pframe := space f1 }
      = .next { State.reset with pframe := space f1, results := [0x50] } := by rfl
theorem test_rdstat_seven_bytes :
    exec .rdstat (linked 5000 7 [] 0 0) = .next { linked 5000 7 [] 0 0 with results := [0x0703] } := by
  rfl
theorem test_nop_discards_nothing :
    exec .nop (linked 5000 7 [] 0 0) = .next { linked 5000 7 [] 0 0 with results := [0] } := by rfl
theorem test_levels_together :
    (at' 1001).levels = [.linkLoss, .sensorStall] ∧ (at' 1000).levels = [.sensorStall] := by decide

/-! ### The port: the step, pseudo-operations, the host's hook -/

theorem test_withFetchWord_runs_edge :
    step ((at' 5).withFetchWord 16 0x3000) = exec .edge (at' 5) := by rfl
theorem test_withFetchWord_reserved :
    step (State.reset.withFetchWord 16 0x8E00) = .refused (.reservedWord .reservedField) := by rfl
theorem test_rxfc_words :
    assemble 0 [⟨some 7, .rxfc [1, 2]⟩, ⟨none, .instr .nop⟩]
      = [.op ⟨0x2001, 7⟩, .op ⟨0x2002, 7⟩, .op ⟨0x2003, 7⟩, .op ⟨0x0000, 7⟩] := by decide

/-! ### Witnesses: the hypotheses of each statement can be met together -/

theorem witness_DecodeReadsBackEveryEncoding :
    (Instr.rdfrm 19).wellFormed = true ∧ (Instr.rxb 0xFF).wellFormed = true := by decide
theorem witness_DecodeAcceptsOnlyEncodings :
    decode 0x9013 = .ok (.rdfrm 19) ∧ decode 0x20FF = .ok (.rxb 0xFF) := by decide

/-- A state with one word on the port. -/
def offered (w : Word) : State := { State.reset with pending := [.op ⟨w, 3⟩] }

/-- Each clause at a boundary: opcode 0xA and 0x9; `w[11:0]` 1; `sel` 1; `data` 1; field codes 13 and 14;
indices 19 and 20, and bit 5. -/
theorem witness_ReservedWordsAreRefused :
    (offered 0xA000).pending = [.op ⟨0xA000, 3⟩] ∧
    (decode 0xA000).toOption = none ∧ (decode 0x9000).toOption ≠ none ∧
    (decode 0x7001).toOption = none ∧ (decode 0x7000).toOption ≠ none ∧
    (decode 0x2100).toOption = none ∧ (decode 0x20FF).toOption ≠ none ∧
    (decode 0x8001).toOption = none ∧ (decode 0x8D00).toOption ≠ none ∧
    (decode 0x8E00).toOption = none ∧ (decode 0x9013).toOption ≠ none ∧
    (decode 0x9014).toOption = none ∧ (decode 0x9020).toOption = none := by decide
theorem witness_StepRunsTheDecodedOperation :
    (offered 0x1000).pending = .op ⟨0x1000, 3⟩ :: [] ∧ decode 0x1000 = .ok .tick := by decide
theorem witness_StepWaitsOnAQuietPort : State.reset.pending = [] := by decide
theorem witness_ResetGivesEveryRegisterItsValue :
    ({ nearlyF1 9 with pending := [.reset 7] } : State).pending = .reset 7 :: [] := by decide
theorem witness_ResetLeavesThePortToTheEnvironment :
    ({ nearlyF1 9 with pending := [.reset 7, .op ⟨0x3000, 8⟩] } : State).pending
      = .reset 7 :: [.op ⟨0x3000, 8⟩] := by decide
theorem witness_NoDrivePowerBeforeAFrame :
    (at' 1000).pframe = [] ∧ age (at' 1000).now (at' 1000).link.lastValidTs = 1000 ∧
    (at' 1001).pframe = [] ∧ age (at' 1001).now (at' 1001).link.lastValidTs = 1001 := by decide

/-- The three clauses of EDGE: age 0; age 1 with counts 8 and 9. -/
theorem witness_EdgeTakesOneTransition :
    ((timed 7 3 0 7 0).now - (timed 7 3 0 7 0).pulse.lastEdge).toNat < 1 ∧
    1 ≤ ((timed 8 8 0 7 0).now - (timed 8 8 0 7 0).pulse.lastEdge).toNat ∧
    (timed 8 8 0 7 0).pulse.edgeCount.val + 1 ≠ 10 ∧
    1 ≤ ((timed 8 9 0 7 0).now - (timed 8 9 0 7 0).pulse.lastEdge).toNat ∧
    (timed 8 9 0 7 0).pulse.edgeCount.val + 1 = 10 := by decide
theorem witness_EdgeDiscardedExactlyWhenBouncing :
    (∃ t, exec .edge (timed 7 3 0 7 0) = .next t ∧ t.results = [0] ∧ t.pulse.lastEdge = 7) ∧
    ∃ t, exec .edge (timed 8 3 0 7 0) = .next t ∧ t.results = [1] ∧ t.pulse.lastEdge = 8 :=
  ⟨⟨_, rfl, by decide⟩, _, rfl, by decide⟩
theorem witness_EdgeWritesPulseTimingAlone :
    ∃ t, exec .edge (nearlyF1 5) = .next t ∧ t.results = [1] := ⟨_, rfl, by decide⟩

/-- Ten edges 100 ms apart, the source's window of 1 s. -/
def tenEdges : List Time := [100, 200, 300, 400, 500, 600, 700, 800, 900, 1000]

theorem witness_TenSpacedEdgesCloseOneWindow :
    State.reset.pulse.edgeCount.val = 0 ∧ tenEdges.length = 10 ∧
    List.IsChain (fun a b : Time => 1 ≤ age b a) (State.reset.pulse.lastEdge :: tenEdges) ∧
    ({ State.reset with pending := tenEdges.map fun t => .op ⟨encode .edge, t⟩ } : State).pending
      = tenEdges.map (fun t => Input.op ⟨encode .edge, t⟩) ++ [] := by decide
theorem witness_WindowTimingIsKept :
    WindowTiming { timed 8 9 0 9 0 with now := 9, pending := [.op ⟨0x3000, 10⟩] } ∧
    ClockAdvances { timed 8 9 0 9 0 with now := 9, pending := [.op ⟨0x3000, 10⟩] } ∧
    ∃ t, step { timed 8 9 0 9 0 with now := 9, pending := [.op ⟨0x3000, 10⟩] } = .next t ∧
      t.pulse.windowDuration = 10 :=
  ⟨by unfold WindowTiming; decide, by show (9 : Nat) ≤ 10; decide, _, rfl, by decide⟩

/-- RDSPD's clauses: no window closed; ages 500 and 501; no magnets; raw speeds 9 and 10 at the floor, 992
and 988 about the ceiling (wheel 257 mm, one magnet: `36*355*257*10/(113*T)`, T whole). -/
theorem witness_RdspdReturnsTheSpeedEstimate :
    (rolling 1000 0).pulse.windowDuration.toNat = 0 ∧
    age (rolling 1500 900).now (rolling 1500 900).pulse.windowStart = 500 ∧
    age (rolling 1501 900).now (rolling 1501 900).pulse.windowStart = 501 ∧
    ((at' 1000).params Config.layout).magnetCount.toNat = 0 ∧
    speedRaw Config.params 257 1 29067 = 9 ∧ speedRaw Config.params 257 1 29066 = 10 ∧
    speedRaw Config.params 257 1 293 = 992 ∧ speedRaw Config.params 257 1 294 = 988 :=
  ⟨by decide, by decide, by decide, rfl, by decide, by decide, by decide, by decide⟩

/-- The two clauses of RDPUL: stationary, and rolling at 10 tenths of km/h. -/
theorem witness_RdpulReturnsThePulsesValue :
    (at' 0).speed Config.layout = 0 ∧ (rolling 1000 29066).speed Config.layout = 10 := by
  refine ⟨rfl, ?_⟩
  rw [State.speed, ones_magnets, ones_wheel]
  decide
theorem witness_ClampsAgreeWithTheExactQuotient :
    0 < 1 ∧ 36 * 355 * 650 * 10 < 10 * (113 * 1 * 73514) ∧
    ¬ 36 * 355 * 650 * 10 < 10 * (113 * 1 * 73513) ∧
    990 * (113 * 1 * 742) ≤ 36 * 355 * 650 * 10 ∧
    ¬ 990 * (113 * 1 * 743) ≤ 36 * 355 * 650 * 10 := by decide
theorem witness_NoMagnetsOrNoWheelMeansStationary :
    (State.reset.params Config.layout).magnetCount = 0 ∧
    (State.reset.params Config.layout).wheelDiameterMm = 0 := by
  have h : ∀ k : Config.params.PairOffset, pairAt [] k = 0 := by decide
  exact ⟨rfl, h _⟩
theorem witness_StalledForcesSpeedZero :
    (statWord (P := Config.params) 0 (stalled 1501 (rolling 1501 900).pulse) false).getLsbD 1 = true ∧
    (statWord (P := Config.params) 0 (stalled 1500 (rolling 1500 900).pulse) false).getLsbD 1 = false := by decide

/-- Two states that agree on what the estimate reads and differ elsewhere. -/
theorem witness_EstimateReadsOnlyItsInputs :
    let s := rolling 1200 900
    let s' := { rolling 1200 900 with
      pulse := ⟨5, 1000, 1100, 900⟩, link := ⟨3, [], 1, 2⟩, replies := [[1]] }
    s ≠ s' ∧ s.now = s'.now ∧ s.pulse.windowDuration = s'.pulse.windowDuration ∧
    s.pulse.windowStart = s'.pulse.windowStart ∧ s.pframe = s'.pframe := by decide

/-- The three clauses of RXB: index 18, and index 19 with a wrong and a right checksum; and both values of
`timeout`, at ages 51 and 50. -/
theorem witness_RxbTakesOneByte :
    silenceExpired 50 (nearlyF1 50).link = false ∧ silenceExpired 51 (nearlyF1 51).link = true ∧
    (linked 0 18 [] 0 0).link.cursor.val + 1 < 20 ∧
    (nearlyF1 50).link.cursor.val + 1 = 20 ∧
    checksumOk (Memory.bytes Config.params (Memory.write (nearlyF1 50).link.rxbuf (19 : FrameIndex) 0x51)) = false ∧
    checksumOk (Memory.bytes Config.params (Memory.write (nearlyF1 50).link.rxbuf (19 : FrameIndex) 0x50)) = true := by decide
theorem witness_RxbStoresItsByteAndNoOther :
    Memory.wf Config.params (nearlyF1 50).link.rxbuf = true ∧
    (∃ t, exec (.rxb 0x50) (nearlyF1 50) = .next t) ∧ (5 : FrameIndex) ≠ storeIndex 50 (nearlyF1 50).link :=
  ⟨by decide, ⟨_, rfl⟩, by decide⟩
theorem witness_BadChecksumLeavesParametersAlone :
    ∃ t, exec (.rxb 0x51) (nearlyF1 50) = .next t ∧
      (storeIndex 50 (nearlyF1 50).link).val + 1 = 20 ∧
      checksumOk (Memory.bytes Config.params t.link.rxbuf) = false ∧ t.results = [2] := ⟨_, rfl, by decide⟩
theorem witness_NoByteJoinsAStalePartialFrame :
    (nearlyF1 51).link.cursor.val ≠ 0 ∧ 50 < age (nearlyF1 51).now (nearlyF1 51).link.lastByteTs ∧
    Memory.wf Config.params (nearlyF1 51).link.rxbuf = true := by decide

/-- RXB at index 19 and at index 18, TICK, and an operation that leaves the cursor alone. -/
theorem witness_CursorMovesOnlyByTheseRules :
    (∃ t, exec (.rxb 0x51) (nearlyF1 50) = .next t ∧ t.link.cursor = 0) ∧
    (∃ t, exec (.rxb 0x51) (linked 0 18 [] 0 0) = .next t ∧ t.link.cursor = 19) ∧
    (∃ t, exec .tick (nearlyF1 51) = .next t ∧ t.link.cursor = 0) ∧
    ∃ t, exec .edge (nearlyF1 51) = .next t ∧ t.link.cursor = 19 :=
  ⟨⟨_, rfl, by decide⟩, ⟨_, rfl, by decide⟩, ⟨_, rfl, by decide⟩, _, rfl, by decide⟩
theorem witness_LatchedFrameIsReadBack :
    Memory.wf Config.params (nearlyF1 50).link.rxbuf = true ∧ (∃ t, exec (.rxb 0x50) (nearlyF1 50) = .next t) ∧
    frameOutcome 50 0x50 (nearlyF1 50).link = .frameValid := ⟨by decide, ⟨_, rfl⟩, by decide⟩
theorem witness_ReplyExactlyOnAValidFrame :
    (∃ t, exec (.rxb 0x51) (nearlyF1 50) = .next t ∧ t.replies = []) ∧
    ∃ t, exec (.rxb 0x50) (nearlyF1 50) = .next t ∧ t.replies.length = 1 :=
  ⟨⟨_, rfl, by decide⟩, _, rfl, by decide⟩
theorem witness_ChecksumDetectsEverySingleBitFlip :
    2 ≤ f1.length ∧ checksumOk f1 = true ∧ 7 < 8 ∧ 19 < f1.length ∧
    (List.replicate 4 true ++ List.replicate 16 false).length = f1.length ∧
    (List.replicate 4 true ++ List.replicate 16 false).count true % 2 = 0 := by
  decide

/-- A clock standing still, for twenty bytes. -/
def twentyTimes (t : Time) : List Time := List.replicate 20 t

/-- F1 as it comes on the port at one clock value. -/
def f1Inputs (t : Time) : List Input :=
  List.zipWith (fun b t => .op ⟨encode (.rxb b), t⟩) f1 (twentyTimes t)

theorem witness_TwentyBytesMakeAValidFrame :
    Memory.wf Config.params State.reset.link.rxbuf = true ∧ State.reset.link.cursor.val = 0 ∧
    f1.length = 20 ∧ checksumOk f1 = true ∧ (twentyTimes 60).length = 20 ∧
    List.IsChain (fun a b : Time => age b a ≤ 50) (twentyTimes 60) ∧
    ({ State.reset with pending := f1Inputs 60 } : State).pending = f1Inputs 60 ++ [] := by decide

/-- Five stray bytes, the last at 4; F1 at 60 (95_test_vectors.md P2), without and with a `TICK` at 55. -/
theorem witness_SilenceRealignsTheNextFrame :
    let s := linked 4 5 (space [0xAA, 0xBB, 0xCC, 0xDD, 0xEE]) 4 0
    Memory.wf Config.params s.link.rxbuf = true ∧ s.link.cursor.val ≠ 0 ∧
    f1.length = 20 ∧ checksumOk f1 = true ∧ (twentyTimes 60).length = 20 ∧
    List.IsChain (fun a b : Time => age b a ≤ 50) (twentyTimes 60) ∧
    50 < age ((twentyTimes 60).headD 0) s.link.lastByteTs ∧ 50 < age 55 s.link.lastByteTs ∧
    ({ s with pending := f1Inputs 60 } : State).pending = f1Inputs 60 ++ [] ∧
    ({ s with pending := .op ⟨encode .tick, 55⟩ :: f1Inputs 60 } : State).pending
      = .op ⟨encode .tick, 55⟩ :: f1Inputs 60 ++ [] := by decide

/-- F1's last byte on the port: a state of the three framer invariants whose step latches a frame. -/
def lastByteOffered : State := { nearlyF1 0 with pending := [.op ⟨0x2050, 50⟩] }

theorem witness_LatchedFrameStaysValid :
    LatchedFrameValid lastByteOffered ∧
    ∃ t, step lastByteOffered = .next t ∧ Memory.bytes Config.params t.pframe = f1 :=
  ⟨by unfold LatchedFrameValid; decide, _, rfl, by decide⟩
theorem witness_ByteSpacesStayCanonical :
    MemoryCanonical lastByteOffered ∧ ∃ t, step lastByteOffered = .next t :=
  ⟨by unfold MemoryCanonical; decide, _, rfl⟩
theorem witness_EmittedRepliesStayValid :
    RepliesValid lastByteOffered ∧ ∃ t, step lastByteOffered = .next t ∧ t.replies.length = 1 :=
  ⟨by unfold RepliesValid; decide, _, rfl, by decide⟩
theorem witness_PseudoOperationsFeedFrames :
    (f1.take 19).length = 19 ∧ ([0x01] : List Byte) ≠ [] := by decide

/-- TICK's two clauses, at ages 51 and 50 and with no partial frame. -/
theorem witness_TickDiscardsAStalePartialFrame :
    ((linked 61 1 [] 10 0).link.cursor.val ≠ 0 ∧ 50 < age 61 (linked 61 1 [] 10 0).link.lastByteTs) ∧
    ¬ ((linked 60 1 [] 10 0).link.cursor.val ≠ 0 ∧ 50 < age 60 (linked 60 1 [] 10 0).link.lastByteTs) ∧
    ¬ ((linked 61 0 [] 10 0).link.cursor.val ≠ 0 ∧ 50 < age 61 (linked 61 0 [] 10 0).link.lastByteTs) := by
  decide
theorem witness_EventsHaveTheirOneCause :
    (∃ t, exec (.rxb 0x51) (nearlyF1 50) = .next t ∧ t.results = (nearlyF1 50).results ++ [2] ∧
      ErrorCode.checksumMismatch ∈ reportedEvents (.rxb 0x51) 2) ∧
    ∃ t, exec .tick (nearlyF1 51) = .next t ∧ t.results = (nearlyF1 51).results ++ [4] ∧
      ErrorCode.frameTimeout ∈ reportedEvents .tick 4 :=
  ⟨⟨_, rfl, by decide⟩, _, rfl, by decide⟩
/-- A `TICK` that fires, and after it an operation other than `RXB`. -/
theorem witness_TimeoutIsReportedOnce :
    silenceExpired 61 (linked 61 1 [] 10 0).link = true ∧
    (∃ t, exec .tick (linked 61 1 [] 10 0) = .next t ∧ t.results = [4]) ∧
    (∀ b, Instr.edge ≠ .rxb b) ∧ ∃ t, exec .edge (linked 200 0 [] 10 0) = .next t :=
  ⟨by decide, ⟨_, rfl, by decide⟩, by decide, _, rfl⟩
theorem witness_TimeoutNeverMeetsCompletion :
    ∃ t, exec (.rxb 0x50) (nearlyF1 51) = .next t ∧ t.results = [4] := ⟨_, rfl, by decide⟩

/-- RDTHR's two clauses, at ages 1000 and 1001. -/
theorem witness_RdthrReturnsTheThrottleLevel :
    ((at' 1000).now - (at' 1000).link.lastValidTs).toNat = 1000 ∧
    ((at' 1001).now - (at' 1001).link.lastValidTs).toNat = 1001 := by decide
theorem witness_ThrottleLevelRange :
    failsafe 1001 (at' 1001).link = true ∧ failsafe 1000 (at' 1000).link = false ∧ 0 ≤ 1023 := by
  decide
theorem witness_FailsafeHoldsUntilAValidFrame :
    (∃ t, exec (.rxb 0x51) (nearlyF1 50) = .next t) ∧
    ∀ b, Instr.rxb 0x51 = .rxb b → frameOutcome 50 b (nearlyF1 50).link ≠ .frameValid := by
  refine ⟨⟨_, rfl⟩, fun b hb => ?_⟩
  cases hb
  decide
theorem witness_LevelsShowWhereTheyAreReported :
    ErrorCode.linkLoss ∈ (at' 1001).levels ∧ ErrorCode.linkLoss ∉ (at' 1000).levels ∧
    ErrorCode.sensorStall ∈ (rolling 1501 900).levels ∧
    ErrorCode.sensorStall ∉ (rolling 1500 900).levels := by decide
theorem witness_TwoByteValuesAreBigEndian :
    pairAt (space f1) (pairOff 17) = 0x0000 ∧ pairAt (space f1) (pairOff 6) = 0x028A ∧ pairAt (space f1) (pairOff 13) = 0x6003 ∧
    ((18 : FrameIndex).val = (pairOff 17).val + 1) := by decide
theorem witness_RdfrmReturnsTheLatchedByte :
    (19 : BitVec 5).toNat < 20 ∧ 20 ≤ (20 : BitVec 5).toNat := by decide
theorem witness_ReadsChangeNothingAndRepeat :
    (∀ b, Instr.rdstat ≠ .rxb b) ∧ Instr.rdstat ≠ .tick ∧ Instr.rdstat ≠ .edge ∧
    ∃ t, exec .rdstat (nearlyF1 5) = .next t := ⟨by decide, by decide, by decide, _, rfl⟩
theorem witness_WriteSetsAreClosed :
    (∃ t, exec .tick (nearlyF1 51) = .next t) ∧ Instr.tick ≠ .edge ∧ (∀ b, Instr.tick ≠ .rxb b) ∧
    frameOutcome 50 0x51 (nearlyF1 50).link ≠ .frameValid :=
  ⟨⟨_, rfl⟩, by decide, by decide, by decide⟩
theorem witness_AgentsWriteDisjointRegisters :
    Instr.tick.agent = .pollSide ∧ Instr.edge.agent = .edgeSide ∧
    (∃ t, exec .tick (nearlyF1 51) = .next t) ∧ ∃ t, exec .edge (nearlyF1 51) = .next t :=
  ⟨rfl, rfl, ⟨_, rfl⟩, _, rfl⟩
theorem witness_EveryAdmittedOperationCompletes : (Instr.rdfrm 19).wellFormed = true := by decide
theorem witness_AdmittedStepsGoOn :
    (∀ x ∈ State.reset.pending, Admitted x) ∧ ∀ x ∈ lastByteOffered.pending, Admitted x := by
  refine ⟨by simp [State.reset, State.resetAt], fun x hx => ?_⟩
  obtain rfl : x = .op ⟨0x2050, 50⟩ := by simpa [lastByteOffered] using hx
  exact ⟨.rxb 0x50, by decide⟩
theorem witness_AdmittedRunsNeverStop :
    ∀ x ∈ lastByteOffered.pending, Admitted x := by
  intro x hx
  obtain rfl : x = .op ⟨0x2050, 50⟩ := by simpa [lastByteOffered] using hx
  exact ⟨.rxb 0x50, by decide⟩
theorem witness_ElapsedTimeIsModular :
    (99 : Time).toNat ≤ (100 : Time).toNat ∧ 0 < 1 ∧ (99 : Time).toNat + 1 = (100 : Time).toNat := by
  decide

end Sys2Proof.Tests
end

section
/-! SUPPORT. Elapsed time on a clock of `w` bits (00_scope.md R11), and the statements of 00_scope.md: the
step runs what the port's word decodes to, and an age is a difference modulo the clock's range. -/

namespace Sys2Proof.Machine

/-! ### Elapsed time, at every clock width -/

section

variable {w : Nat} {now t : BitVec w}

theorem age_eq_mod (now t : BitVec w) :
    age now t = (now.toNat + (2 ^ w - t.toNat)) % 2 ^ w := by
  rw [age, BitVec.toNat_sub, Nat.add_comm]

/-- A clock that has not wrapped since `t`. -/
theorem age_of_le (h : t.toNat ≤ now.toNat) : age now t = now.toNat - t.toNat :=
  BitVec.toNat_sub_of_le h

/-- A clock `d` behind `t` (70_reset_and_hazards.md R196): the sum of `age_eq_mod` stays below the
clock's range, so the modulus takes nothing off. -/
theorem age_of_behind {d : Nat} (hd : 0 < d) (h : now.toNat + d = t.toNat) :
    age now t = 2 ^ w - d := by
  have ht : t.toNat < 2 ^ w := t.isLt
  have hsum : now.toNat + (2 ^ w - t.toNat) = 2 ^ w - d := by omega
  rw [age_eq_mod, hsum, Nat.mod_eq_of_lt (by omega)]

/-- A true elapsed time of any length aliases to its remainder (70_reset_and_hazards.md R197): `t` itself
cancels from the difference. -/
theorem age_of_elapsed (t : BitVec w) (e : Nat) :
    age (BitVec.ofNat w (t.toNat + e)) t = e % 2 ^ w := by
  have hsub : BitVec.ofNat w (t.toNat + e) - t = BitVec.ofNat w e := by
    rw [Nat.add_comm, BitVec.ofNat_add, BitVec.ofNat_toNat, BitVec.setWidth_eq, BitVec.add_sub_cancel]
  rw [age, hsub, BitVec.toNat_ofNat]

end

/-! ### The statements -/

/-- Settles O5: the step of a decoded transaction, with the accepted state written out. -/
theorem stepRunsTheDecodedOperation : Obligations.StepRunsTheDecodedOperation := by
  unfold Obligations.StepRunsTheDecodedOperation
  intro s tr rest i hport hdecode
  rw [step_of_decode hport hdecode, State.accept]

/-- Settles O60: the four readings of an age, at this hardware's 32-bit clock. -/
theorem elapsedTimeIsModular : Obligations.ElapsedTimeIsModular := by
  unfold Obligations.ElapsedTimeIsModular
  exact fun now t => ⟨age_eq_mod now t, age_of_le, fun _ => age_of_behind, age_of_elapsed t⟩

end Sys2Proof.Machine
end

section
/-! SUPPORT. What one operation can do, said once (`Effect`, `exec_effect`), and the statements of
10_state.md: the closed table of R35, the failsafe's timestamp, and the valid frame `pframe` holds. -/

namespace Sys2Proof.Machine

open Sys2Proof.Safety

/-! ### What one operation can do -/

/-- The transitions of the operations, one constructor per effect: a read-out answers a word and writes
nothing (R50), and each of the three operations that write has its cases and their guards. -/
inductive Effect (s : State) : Instr → State → Prop where
  | read {i : Instr} (r : Word) (hrxb : ∀ b, i ≠ .rxb b) (htick : i ≠ .tick) (hedge : i ≠ .edge) :
      Effect s i (s.returnWord r)
  | edge :
      Effect s .edge
        ((s.setPulse (takeEdge s.now s.pulse).1).returnWord (takeEdge s.now s.pulse).2)
  | tickQuiet (hquiet : silenceExpired s.now s.link = false) :
      Effect s .tick (s.returnWord (tickWord false))
  | tickDiscards (hsilence : silenceExpired s.now s.link = true) :
      Effect s .tick ((s.setLink (discardPartial s.link)).returnWord (tickWord true))
  | rxbStores (b : Byte) (hinvalid : frameOutcome s.now b s.link ≠ .frameValid) :
      Effect s (.rxb b) ((s.setLink (storeByte s.now b s.link)).returnWord
        (rxbWord (silenceExpired s.now s.link) (frameOutcome s.now b s.link)))
  | rxbLatches (b : Byte) (hvalid : frameOutcome s.now b s.link = .frameValid) :
      Effect s (.rxb b) ((sendReply (latchFrame (s.setLink (storeByte s.now b s.link)))).returnWord
        (rxbWord (silenceExpired s.now s.link) .frameValid))

/-- `TICK` runs the silence test and nothing else (44_link_supervisor.md R130). -/
theorem execTick_effect {s t : State} (h : execTick s = .next t) : Effect s .tick t := by
  unfold execTick at h
  split at h
  · next hsilence => cases h; exact .tickDiscards hsilence
  · next hquiet => cases h; exact .tickQuiet (by simpa using hquiet)

/-- `RXB` stores its byte; only a byte that completes a valid frame does more (43_framer.md R113). -/
theorem execRxb_effect {b : Byte} {s t : State} (h : execRxb b s = .next t) :
    Effect s (.rxb b) t := by
  unfold execRxb at h
  cases ho : frameOutcome s.now b s.link with
  | frameValid =>
    simp only [ho] at h
    cases h
    exact .rxbLatches b ho
  | incomplete | checksumMismatch =>
    simp only [ho] at h
    cases h
    exact ho ▸ .rxbStores b (by simp [ho])

/-- Every operation that completes has one of the effects listed. -/
theorem exec_effect {i : Instr} {s t : State} (h : exec i s = .next t) : Effect s i t := by
  cases i with
  | tick => exact execTick_effect h
  | rxb b => exact execRxb_effect h
  | edge => cases h; exact .edge
  | rdfrm k =>
    simp only [exec, execRdfrm] at h
    split at h
    · cases h; exact .read _ nofun nofun nofun
    · cases h
  | nop | rdspd | rdpul | rdthr | rdstat | rdpar _ => cases h; exact .read _ nofun nofun nofun

/-! ### Which operation writes which register (10_state.md R35) -/

section

variable {i : Instr} {s t : State}

theorem exec_keeps_pulse (h : exec i s = .next t) (hi : i ≠ .edge) : t.pulse = s.pulse := by
  cases exec_effect h with
  | edge => exact absurd rfl hi
  | read | tickQuiet | tickDiscards | rxbStores | rxbLatches => rfl

/-- Without a valid frame, what a valid frame writes stays (43_framer.md R116, R117). -/
theorem exec_keeps_latch (h : exec i s = .next t)
    (hno : ∀ b, i = .rxb b → frameOutcome s.now b s.link ≠ .frameValid) :
    t.pframe = s.pframe ∧ t.link.lastValidTs = s.link.lastValidTs ∧ t.replies = s.replies := by
  cases exec_effect h with
  | rxbLatches b hvalid => exact absurd hvalid (hno b rfl)
  | read | edge | tickQuiet | tickDiscards | rxbStores => exact ⟨rfl, rfl, rfl⟩

theorem exec_keeps_rxbuf_lastByteTs (h : exec i s = .next t) (hi : ∀ b, i ≠ .rxb b) :
    t.link.rxbuf = s.link.rxbuf ∧ t.link.lastByteTs = s.link.lastByteTs := by
  cases exec_effect h with
  | rxbStores b | rxbLatches b => exact absurd rfl (hi b)
  | read | edge | tickQuiet | tickDiscards => exact ⟨rfl, rfl⟩

theorem exec_keeps_cursor (h : exec i s = .next t) (hi : ∀ b, i ≠ .rxb b) (htick : i ≠ .tick) :
    t.link.cursor = s.link.cursor := by
  cases exec_effect h with
  | rxbStores b | rxbLatches b => exact absurd rfl (hi b)
  | tickQuiet | tickDiscards => exact absurd rfl htick
  | read | edge => rfl

end

/-! ### The latched frame (10_state.md R31) -/

/-- A frame reported valid has a valid checksum in the buffer the byte was stored to. -/
theorem checksumOk_of_frameValid {t : Time} {b : Byte} {l : LinkState Config.params}
    (h : frameOutcome t b l = .frameValid) :
    checksumOk (Memory.bytes Config.params (storeByte t b l).rxbuf) = true := by
  obtain ⟨hinc, -⟩ | ⟨-, -, hok⟩ | ⟨hbad, -⟩ := frameOutcome_cases t b l
  · simp [h] at hinc
  · exact hok
  · simp [h] at hbad

/-- The reset frame of zeros has a valid checksum (70_reset_and_hazards.md R191). -/
theorem resetBlock_latchedFrameValid (now0 : Time) (s : State) :
    LatchedFrameValid (resetBlock now0 s) := by
  rw [LatchedFrameValid, resetBlock_pframe]
  decide

/-- An operation latches only the buffer of a frame just found valid. -/
theorem exec_keeps_latchedFrameValid {i : Instr} {s t : State} (hs : LatchedFrameValid s)
    (h : exec i s = .next t) : LatchedFrameValid t := by
  cases exec_effect h with
  | rxbLatches b hvalid => exact checksumOk_of_frameValid hvalid
  | read | edge | tickQuiet | tickDiscards | rxbStores => exact hs

/-! ### The statements -/

/-- Settles O35: the port is quiet, a reset zeroes `pframe`, or an operation runs on the accepted state. -/
theorem latchedFrameStaysValid : Obligations.LatchedFrameStaysValid := by
  unfold Obligations.LatchedFrameStaysValid
  intro s t hs h
  obtain ⟨-, rfl⟩ | ⟨now0, rest, -, rfl⟩ | ⟨tr, rest, i, -, -, hexec⟩ := step_cases h
  · exact hs
  · exact resetBlock_latchedFrameValid now0 _
  · have haccepted : LatchedFrameValid (s.accept tr.now rest) := hs
    exact exec_keeps_latchedFrameValid haccepted hexec

/-- Settles O47: the failsafe reads no register but `last_valid_ts`, which stays without a valid frame. -/
theorem failsafeHoldsUntilAValidFrame : Obligations.FailsafeHoldsUntilAValidFrame := by
  unfold Obligations.FailsafeHoldsUntilAValidFrame
  intro i s t h hno
  obtain ⟨-, hts, -⟩ := exec_keeps_latch h hno
  exact ⟨hts, fun later => by simp only [failsafe, hts]⟩

/-- Settles O55, row by row of the table. -/
theorem writeSetsAreClosed : Obligations.WriteSetsAreClosed := by
  unfold Obligations.WriteSetsAreClosed
  intro i s t h
  refine ⟨exec_keeps_pulse h, fun hrxb => ?_, fun b hi hinvalid => ?_⟩
  · obtain ⟨hpframe, hts, hreplies⟩ := exec_keeps_latch h fun b hi => absurd hi (hrxb b)
    obtain ⟨hbuf, hbyte⟩ := exec_keeps_rxbuf_lastByteTs h hrxb
    exact ⟨hpframe, hreplies, hbuf, hbyte, hts, exec_keeps_cursor h hrxb⟩
  · subst hi
    obtain ⟨hpframe, hts, -⟩ := exec_keeps_latch h fun b' hb' => by cases hb'; exact hinvalid
    exact ⟨hpframe, hts⟩

end Sys2Proof.Machine
end

section
/-! SUPPORT. The statements of 20_memory.md: the canonical form of the byte spaces, the one byte an `RXB`
writes, the order of the bytes in a two-byte value, and the reads that change nothing. -/

namespace Sys2Proof.Machine

open Sys2Proof.Safety

/-! ### The canonical form -/

/-- After a reset both byte spaces list no cell (70_reset_and_hazards.md R191). -/
theorem resetBlock_memoryCanonical (now0 : Time) (s : State) :
    MemoryCanonical (resetBlock now0 s) :=
  ⟨Memory.wf_nil, Memory.wf_nil⟩

/-- An operation writes `rxbuf` by a stored byte only, and `pframe` by a copy of `rxbuf` only. -/
theorem exec_keeps_memoryCanonical {i : Instr} {s t : State} (hs : MemoryCanonical s)
    (h : exec i s = .next t) : MemoryCanonical t := by
  obtain ⟨hbuf, hpframe⟩ := hs
  cases exec_effect h with
  | rxbStores b => exact ⟨storeByte_wf hbuf, hpframe⟩
  | rxbLatches b => exact ⟨storeByte_wf hbuf, storeByte_wf hbuf⟩
  | read | edge | tickQuiet | tickDiscards => exact ⟨hbuf, hpframe⟩

/-- Settles O36: the port is quiet, a reset empties both spaces, or an operation runs on the accepted
state. -/
theorem byteSpacesStayCanonical : Obligations.ByteSpacesStayCanonical := by
  unfold Obligations.ByteSpacesStayCanonical
  intro s t hs h
  obtain ⟨-, rfl⟩ | ⟨now0, rest, -, rfl⟩ | ⟨tr, rest, i, -, -, hexec⟩ := step_cases h
  · exact hs
  · exact resetBlock_memoryCanonical now0 _
  · have haccepted : MemoryCanonical (s.accept tr.now rest) := hs
    exact exec_keeps_memoryCanonical haccepted hexec

/-! ### The stored byte -/

/-- Whatever the byte completes, an `RXB` makes one write to `rxbuf` (20_memory.md R41). -/
theorem exec_rxb_rxbuf {b : Byte} {s t : State} (h : exec (.rxb b) s = .next t) :
    t.link.rxbuf = Memory.write s.link.rxbuf (storeIndex s.now s.link) b := by
  cases exec_effect h with
  | read _ hrxb => exact absurd rfl (hrxb b)
  | rxbStores | rxbLatches => rfl

/-- Settles O25, by what reads see of the one write. -/
theorem rxbStoresItsByteAndNoOther : Obligations.RxbStoresItsByteAndNoOther := by
  unfold Obligations.RxbStoresItsByteAndNoOther
  intro b s t h
  rw [exec_rxb_rxbuf h]
  exact ⟨fun hbuf => Memory.read_write_self hbuf _ b, fun k hk => Memory.read_write_other _ hk b⟩

/-! ### The reads -/

/-- A read-out's word is a function of the registers and the clock input: what the port has returned
before does not enter. -/
theorem exec_read_ignores_results {i : Instr} (hrxb : ∀ b, i ≠ .rxb b) (htick : i ≠ .tick)
    (hedge : i ≠ .edge) {s t : State} (h : exec i s = .next t) :
    ∃ r, t = s.returnWord r ∧
      ∀ earlier, exec i (s.returnWord earlier) = .next ((s.returnWord earlier).returnWord r) := by
  cases i with
  | rxb b => exact absurd rfl (hrxb b)
  | tick => exact absurd rfl htick
  | edge => exact absurd rfl hedge
  | rdfrm k =>
    simp only [exec, execRdfrm] at h
    split at h
    · next hk => cases h; exact ⟨_, rfl, fun _ => by simp [exec, execRdfrm, hk]⟩
    · cases h
  | nop | rdspd | rdpul | rdthr | rdstat | rdpar _ => cases h; exact ⟨_, rfl, fun _ => rfl⟩

/-- Settles O54: the earlier word is the read's own. -/
theorem readsChangeNothingAndRepeat : Obligations.ReadsChangeNothingAndRepeat := by
  unfold Obligations.ReadsChangeNothingAndRepeat
  intro i hrxb htick hedge s t h
  obtain ⟨r, rfl, hrepeat⟩ := exec_read_ignores_results hrxb htick hedge h
  exact ⟨r, rfl, hrepeat r⟩

/-! ### Two-byte values -/

/-- The number two bytes make, the more significant first. -/
theorem toNat_append_byte (hi lo : Byte) : (hi ++ lo).toNat = hi.toNat * 256 + lo.toNat := by
  rw [BitVec.toNat_append, ← Nat.shiftLeft_add_eq_or_of_lt lo.isLt, Nat.shiftLeft_eq]

/-- Settles O50: the two indices are those `pairAt` reads. -/
theorem twoByteValuesAreBigEndian : Obligations.TwoByteValuesAreBigEndian := by
  unfold Obligations.TwoByteValuesAreBigEndian
  intro f k i j hi hj
  have hpair : pairAt f k = Memory.read f i ++ Memory.read f j := by
    simp only [pairAt, Memory.read, hi, hj]
  rw [hpair, toNat_append_byte]

end Sys2Proof.Machine
end

section
/-! SUPPORT. The transaction word as a number: its fields, what each form of the decoder accepts, and the
statements of 30_encoding.md about the opcode map. -/

namespace Sys2Proof

/-! ### A word and its fields as numbers -/

/-- An appended word as a number, the left part the more significant. -/
theorem toNat_append_eq_add {m n : Nat} (x : BitVec m) (y : BitVec n) :
    (x ++ y).toNat = x.toNat * 2 ^ n + y.toNat := by
  rw [BitVec.toNat_append, ← Nat.shiftLeft_add_eq_or_of_lt y.isLt, Nat.shiftLeft_eq]

section

variable (w : Word)

theorem opField_toNat : (opField w).toNat = w.toNat / 4096 := by
  rw [opField, BitVec.extractLsb'_toNat, Nat.shiftRight_eq_div_pow]
  omega

theorem selField_toNat : (selField w).toNat = w.toNat / 256 % 16 := by
  rw [selField, BitVec.extractLsb'_toNat, Nat.shiftRight_eq_div_pow]

theorem dataField_toNat : (dataField w).toNat = w.toNat % 256 := by
  rw [dataField, BitVec.extractLsb'_toNat, Nat.shiftRight_zero]

theorem indexField_toNat : (indexField w).toNat = w.toNat % 32 := by
  rw [indexField, BitVec.extractLsb'_toNat, Nat.shiftRight_zero]

theorem operandBits_toNat : (operandBits w).toNat = w.toNat % 4096 := by
  rw [operandBits, BitVec.extractLsb'_toNat, Nat.shiftRight_zero]

theorem aboveIndex_toNat : (aboveIndex w).toNat = w.toNat / 32 % 128 := by
  rw [aboveIndex, BitVec.extractLsb'_toNat, Nat.shiftRight_eq_div_pow]

theorem operandBits_eq_zero_iff : operandBits w = 0 ↔ w.toNat % 4096 = 0 := by
  rw [← operandBits_toNat, BitVec.toNat_eq]
  rfl

theorem selField_eq_zero_iff : selField w = 0 ↔ w.toNat / 256 % 16 = 0 := by
  rw [← selField_toNat, BitVec.toNat_eq]
  rfl

theorem dataField_eq_zero_iff : dataField w = 0 ↔ w.toNat % 256 = 0 := by
  rw [← dataField_toNat, BitVec.toNat_eq]
  rfl

theorem aboveIndex_eq_zero_iff : aboveIndex w = 0 ↔ w.toNat / 32 % 128 = 0 := by
  rw [← aboveIndex_toNat, BitVec.toNat_eq]
  rfl

end

theorem encode_rxb_toNat (b : Byte) : (encode (.rxb b)).toNat = 0x2000 + b.toNat := by
  rw [encode, toNat_append_eq_add]
  rfl

theorem encode_rdpar_toNat (f : Field) : (encode (.rdpar f)).toNat = 0x8000 + 256 * f.code.toNat := by
  cases f <;> rfl

theorem encode_rdfrm_toNat (k : BitVec 5) : (encode (.rdfrm k)).toNat = 0x9000 + k.toNat := by
  rw [encode, toNat_append_eq_add]
  rfl

/-! ### The field codes (30_encoding.md R59) -/

theorem Field.code_of_ofCode {c : BitVec 4} {f : Field} (h : Field.ofCode c = some f) :
    f.code = c := by
  revert c
  cases f <;> decide

theorem Field.ofCode_eq_none_iff (c : BitVec 4) : Field.ofCode c = none ↔ 14 ≤ c.toNat := by
  revert c
  decide

/-! ### What each form of the decoder accepts -/

/-- A guarded form accepts what its body accepts, when the guard holds. -/
theorem ite_error_eq_ok_iff {c : Prop} [Decidable c] {x : Except DecodeError Instr} {e : DecodeError}
    {i : Instr} : (if c then x else .error e) = .ok i ↔ c ∧ x = .ok i := by
  by_cases hc : c <;> simp [hc]

section

variable {w : Word} {i : Instr}

theorem decodeBare_eq_ok_iff {j : Instr} :
    decodeBare w j = .ok i ↔ w.toNat % 4096 = 0 ∧ j = i := by
  rw [decodeBare, ite_error_eq_ok_iff, operandBits_eq_zero_iff, Except.ok.injEq]

theorem decodeRxb_eq_ok_iff :
    decodeRxb w = .ok i ↔ w.toNat / 256 % 16 = 0 ∧ .rxb (dataField w) = i := by
  rw [decodeRxb, ite_error_eq_ok_iff, selField_eq_zero_iff, Except.ok.injEq]

theorem decodeRdpar_eq_ok_iff :
    decodeRdpar w = .ok i ↔
      w.toNat % 256 = 0 ∧ ∃ f, Field.ofCode (selField w) = some f ∧ .rdpar f = i := by
  rw [decodeRdpar, ite_error_eq_ok_iff, dataField_eq_zero_iff]
  cases Field.ofCode (selField w) <;> simp

/-- The two tests of `RDFRM` are one: `w[11:0]`, as a number, is below `FRAME_LEN`. -/
theorem decodeRdfrm_eq_ok_iff :
    decodeRdfrm Config.params w = .ok i ↔ w.toNat % 4096 < 20 ∧ .rdfrm (indexField w) = i := by
  have hindex : w.toNat / 32 % 128 = 0 ∧ w.toNat % 32 < 20 ↔ w.toNat % 4096 < 20 := by omega
  rw [decodeRdfrm, ite_error_eq_ok_iff, ite_error_eq_ok_iff, aboveIndex_eq_zero_iff,
    indexField_toNat, Except.ok.injEq, ← and_assoc, Config.params_frameLen, hindex]

end

/-! ### Decoding and encoding are inverse -/

/-- Every admitted operation's word has the operation's opcode, and its operand reads back. -/
theorem decode_encode {i : Instr} (hi : i.wellFormed = true) : decode (encode i) = .ok i := by
  cases i with
  | rxb b =>
    have hw := encode_rxb_toNat b
    have hop : (opField (encode (.rxb b))).toNat = 2 := by rw [opField_toNat]; omega
    have hdata : dataField (encode (.rxb b)) = b := BitVec.extractLsb'_append_eq_right
    simp only [decode, hop]
    exact decodeRxb_eq_ok_iff.2 ⟨by omega, by rw [hdata]⟩
  | rdfrm k =>
    have hw := encode_rdfrm_toNat k
    have hk : k.toNat < 20 := by simpa [Instr.wellFormed] using hi
    have hop : (opField (encode (.rdfrm k))).toNat = 9 := by rw [opField_toNat]; omega
    have hindex : indexField (encode (.rdfrm k)) = k := BitVec.extractLsb'_append_eq_right
    simp only [decode, hop]
    exact decodeRdfrm_eq_ok_iff.2 ⟨by omega, by rw [hindex]⟩
  | rdpar f => cases f <;> rfl
  | nop | tick | edge | rdspd | rdpul | rdthr | rdstat => rfl

/-- An accepted word is determined, as a number, by its opcode and what its form of the decoder left
free. -/
theorem encode_of_decode {w : Word} {i : Instr} (h : decode w = .ok i) :
    encode i = w ∧ i.wellFormed = true := by
  have hop := opField_toNat w
  unfold decode at h
  split at h
  case h_3 =>
    obtain ⟨hsel, rfl⟩ := decodeRxb_eq_ok_iff.1 h
    refine ⟨BitVec.eq_of_toNat_eq ?_, rfl⟩
    rw [encode_rxb_toNat, dataField_toNat]
    omega
  case h_9 =>
    obtain ⟨hdata, f, hf, rfl⟩ := decodeRdpar_eq_ok_iff.1 h
    refine ⟨BitVec.eq_of_toNat_eq ?_, rfl⟩
    rw [encode_rdpar_toNat, Field.code_of_ofCode hf, selField_toNat]
    omega
  case h_10 =>
    obtain ⟨hindex, rfl⟩ := decodeRdfrm_eq_ok_iff.1 h
    refine ⟨BitVec.eq_of_toNat_eq ?_, ?_⟩
    · rw [encode_rdfrm_toNat, indexField_toNat]
      omega
    · simp only [Instr.wellFormed, indexField_toNat, decide_eq_true_eq]
      omega
  case h_11 => cases h
  case h_1 | h_2 | h_4 | h_5 | h_6 | h_7 | h_8 =>
    obtain ⟨hoperand, rfl⟩ := decodeBare_eq_ok_iff.1 h
    refine ⟨BitVec.eq_of_toNat_eq ?_, rfl⟩
    rw [encode, BitVec.toNat_ofNat]
    omega

/-- The laws of Laws/PerInstr.lean together. -/
theorem encode_matches_row (i : Instr) : encode i &&& i.row.mask = i.row.pattern := by
  cases i with
  | rxb b => exact Laws.EncodesRow.rxb b
  | rdpar f => exact Laws.EncodesRow.rdpar f
  | rdfrm k => exact Laws.EncodesRow.rdfrm k
  | nop | tick | edge | rdspd | rdpul | rdthr | rdstat => rfl

/-! ### The reserved words (30_encoding.md R76) -/

/-- R76's list of the reserved words, on the word as a number. -/
def ReservedNumber (n : Nat) : Prop :=
  10 ≤ n / 4096 ∨
    (n / 4096 ∈ [0, 1, 3, 4, 5, 6, 7] ∧ n % 4096 ≠ 0) ∨
    (n / 4096 = 2 ∧ n / 256 % 16 ≠ 0) ∨
    (n / 4096 = 8 ∧ (n % 256 ≠ 0 ∨ 14 ≤ n / 256 % 16)) ∨
    (n / 4096 = 9 ∧ 20 ≤ n % 4096)

section

variable {w : Word}

theorem exists_decodeBare_iff {j : Instr} :
    (∃ i, decodeBare w j = .ok i) ↔ w.toNat % 4096 = 0 := by
  simp [decodeBare_eq_ok_iff]

theorem exists_decodeRxb_iff : (∃ i, decodeRxb w = .ok i) ↔ w.toNat / 256 % 16 = 0 := by
  simp [decodeRxb_eq_ok_iff]

theorem exists_decodeRdpar_iff :
    (∃ i, decodeRdpar w = .ok i) ↔ w.toNat % 256 = 0 ∧ w.toNat / 256 % 16 < 14 := by
  have hcode := Field.ofCode_eq_none_iff (selField w)
  rw [selField_toNat] at hcode
  simp only [decodeRdpar_eq_ok_iff]
  cases hf : Field.ofCode (selField w) <;> simp_all

theorem exists_decodeRdfrm_iff :
    (∃ i, decodeRdfrm Config.params w = .ok i) ↔ w.toNat % 4096 < 20 := by
  simp [decodeRdfrm_eq_ok_iff]

end

/-- A word is rejected exactly when its number is reserved: one test per form of the decoder, and past
them (`h_11`) an opcode that is none of 0 to 9. -/
theorem decode_rejects_iff (w : Word) : (¬ ∃ i, decode w = .ok i) ↔ ReservedNumber w.toNat := by
  have hop := opField_toNat w
  simp only [ReservedNumber, List.mem_cons, List.not_mem_nil, or_false]
  unfold decode
  split
  case h_3 => rw [exists_decodeRxb_iff]; omega
  case h_9 => rw [exists_decodeRdpar_iff]; omega
  case h_10 => rw [exists_decodeRdfrm_iff]; omega
  case h_11 =>
    simp only [reduceCtorEq, exists_false, not_false_eq_true, true_iff, imp_false] at *
    omega
  case h_1 | h_2 | h_4 | h_5 | h_6 | h_7 | h_8 => rw [exists_decodeBare_iff]; omega

/-- Settles O1, by `decode_encode`. -/
theorem decodeReadsBackEveryEncoding : Obligations.DecodeReadsBackEveryEncoding := by
  unfold Obligations.DecodeReadsBackEveryEncoding
  exact fun i hi => decode_encode hi

/-- Settles O2: the word is the encoding, and an encoding is of its row. -/
theorem decodeAcceptsOnlyEncodings : Obligations.DecodeAcceptsOnlyEncodings := by
  unfold Obligations.DecodeAcceptsOnlyEncodings
  intro w i h
  obtain ⟨rfl, hi⟩ := encode_of_decode h
  exact ⟨rfl, hi, encode_matches_row i⟩

/-- Settles O3: the words written out are encodings. -/
theorem specWordsDecode : Obligations.SpecWordsDecode := by
  unfold Obligations.SpecWordsDecode
  exact ⟨decode_encode (i := .nop) rfl, decode_encode (i := .tick) rfl,
    decode_encode (i := .rxb 0xAA) rfl, decode_encode (i := .edge) rfl,
    decode_encode (i := .rdthr) rfl, decode_encode (i := .rdpar .wheelDiameterMm) rfl,
    decode_encode (i := .rdfrm 19) rfl⟩

end Sys2Proof

namespace Sys2Proof.Machine

/-- An admitted operation has a next state in every state (60_exceptions.md R160). -/
theorem exec_completes {i : Instr} (hi : i.wellFormed = true) (s : State) :
    ∃ t, exec i s = .next t := by
  cases i with
  | tick =>
    simp only [exec, execTick]
    split <;> exact ⟨_, rfl⟩
  | rxb b =>
    simp only [exec, execRxb]
    split <;> exact ⟨_, rfl⟩
  | rdfrm k =>
    have hk : k.toNat < Config.params.frameLen := by simpa [Instr.wellFormed] using hi
    exact ⟨_, dif_pos hk⟩
  | nop | edge | rdspd | rdpul | rdthr | rdstat | rdpar _ => exact ⟨_, rfl⟩

/-- With a transaction next, the step refuses exactly the words the decoder rejects: an accepted word
runs, and what runs completes. -/
theorem step_refuses_iff {s : State} {tr : Transaction} {rest : List Input}
    (hport : s.pending = .op tr :: rest) :
    (∃ why, step s = .refused (.reservedWord why)) ↔ ¬ ∃ i, decode tr.word = .ok i := by
  cases hdecode : decode tr.word with
  | error e => simp [step, fetch_op hport, fetchTransaction, hdecode]
  | ok i =>
    obtain ⟨t, ht⟩ := exec_completes (encode_of_decode hdecode).2 (s.accept tr.now rest)
    rw [step_of_decode hport hdecode, ht]
    simp

/-- Settles O4: the step refuses what the decoder rejects, and that is R76's list. -/
theorem reservedWordsAreRefused : Obligations.ReservedWordsAreRefused := by
  unfold Obligations.ReservedWordsAreRefused
  intro s tr rest hport
  rw [step_refuses_iff hport]
  exact decode_rejects_iff tr.word

end Sys2Proof.Machine
end

section
/-! SUPPORT. The statements of 30_encoding.md about what is built of words and bytes: the listings, the
reply frame and the status word. -/

namespace Sys2Proof.Machine

/-! ### The listings (30_encoding.md R75) -/

theorem encode_rxb (b : Byte) : encode (.rxb b) = 0x2000 ||| b.setWidth 16 := rfl

/-- A line of bytes puts their `RXB` words on the port, all at the line's clock value. -/
theorem assemble_of_expand {op : AsmOp} {bs : List Byte} (h : op.expand = bs.map .rxb) (t now : Time) :
    assemble t [⟨some now, op⟩] = bs.map (fun b => Input.op ⟨0x2000 ||| b.setWidth 16, now⟩) := by
  simp [assemble, h, encode_rxb]

theorem assemble_rxf (t now : Time) (bs : List Byte) :
    assemble t [⟨some now, .rxf bs⟩]
      = bs.map (fun b => Input.op ⟨0x2000 ||| b.setWidth 16, now⟩) :=
  assemble_of_expand rfl t now

theorem assemble_rxfc (t now : Time) (bs : List Byte) :
    assemble t [⟨some now, .rxfc bs⟩]
      = (bs ++ [xorAll bs]).map (fun b => Input.op ⟨0x2000 ||| b.setWidth 16, now⟩) :=
  assemble_of_expand rfl t now

/-- Settles O40: a listing's line is expanded byte by byte, and an appended XOR is a checksum. -/
theorem pseudoOperationsOfAnyLength : Obligations.PseudoOperationsOfAnyLength := by
  unfold Obligations.PseudoOperationsOfAnyLength
  exact fun t now bs =>
    ⟨(checksumOk_append bs _).2 rfl, assemble_rxfc t now bs, assemble_rxf t now bs⟩

/-- Settles O39: the frame is the 19 bytes with their XOR behind them. -/
theorem pseudoOperationsFeedFrames : Obligations.PseudoOperationsFeedFrames := by
  unfold Obligations.PseudoOperationsFeedFrames
  intro t now bs
  refine ⟨fun hlen => ⟨bs ++ [xorAll bs], rfl, ?_, (checksumOk_append bs _).2 rfl,
    assemble_rxfc t now bs⟩, fun _ => assemble_rxf t now bs⟩
  rw [List.length_append, hlen, List.length_singleton]

/-! ### The reply frame (43_framer.md R118) -/

/-- The XOR of a reply's payload: the template's bytes give the constant of R67. -/
theorem xorAll_replyPayload (hi lo : Byte) :
    xorAll [0x02, 0x0E, 0x01, 0x00, 0x80, 0x00, 0x00, 0x00, hi, lo, 0x00, 0x00, 0xFF]
      = 0x72 ^^^ hi ^^^ lo := by
  have hconst : xorAll [0x02, 0x0E, 0x01, 0x00, 0x80, 0x00, 0x00, 0x00] ^^^ xorAll [0x00, 0x00, 0xFF]
      = 0x72 := by decide
  calc xorAll ([0x02, 0x0E, 0x01, 0x00, 0x80, 0x00, 0x00, 0x00] ++ hi :: lo :: [0x00, 0x00, 0xFF])
      = xorAll [0x02, 0x0E, 0x01, 0x00, 0x80, 0x00, 0x00, 0x00]
          ^^^ (hi ^^^ (lo ^^^ xorAll [0x00, 0x00, 0xFF])) := by
        rw [xorAll_append, xorAll_cons hi, xorAll_cons lo]
    _ = 0x72 ^^^ hi ^^^ lo := by
        rw [← hconst]
        ac_rfl

/-- The reply is its payload and the payload's XOR. -/
theorem encodeReply_eq (p : Word) :
    encodeReply Config.params p =
      [0x02, 0x0E, 0x01, 0x00, 0x80, 0x00, 0x00, 0x00, p.extractLsb' 8 8, p.extractLsb' 0 8, 0x00, 0x00,
        0xFF] ++ [0x72 ^^^ p.extractLsb' 8 8 ^^^ p.extractLsb' 0 8] := by
  rw [← xorAll_replyPayload]
  rfl

/-- Settles O29: the pulses bytes are the word's halves, and the last byte is the payload's XOR. -/
theorem replyFrameLayout : Obligations.ReplyFrameLayout := by
  unfold Obligations.ReplyFrameLayout
  intro p
  have hsplit : p.toNat = 256 * (p.extractLsb' 8 8).toNat + (p.extractLsb' 0 8).toNat := by
    simp only [BitVec.extractLsb'_toNat, Nat.shiftRight_eq_div_pow]
    omega
  refine ⟨p.extractLsb' 8 8, p.extractLsb' 0 8, hsplit, encodeReply_eq p, ?_, ?_⟩
  · rw [encodeReply_eq]; rfl
  · rw [encodeReply_eq, checksumOk_append, xorAll_replyPayload]

/-! ### The status word (30_encoding.md R71) -/

/-- The status word as a number; R8 bounds `FRAME_LEN`, so the cursor fits its five bits. -/
theorem statWord_toNat {P : Params} (cursor : P.FrameIndex) (st fs : Bool) :
    (statWord cursor st fs).toNat
      = cursor.val * 256 + (if st then 2 else 0) + (if fs then 1 else 0) := by
  have hfit : cursor.val < 32 := Nat.lt_of_lt_of_le cursor.isLt P.frameLen_bounds.2
  simp only [statWord, toNat_append_eq_add, BitVec.toNat_ofBool, BitVec.toNat_ofNat]
  cases st <;> cases fs <;> simp <;> omega

/-- Settles O53: the two levels are the time tests of R172. -/
theorem rdstatReturnsTheStatusWord : Obligations.RdstatReturnsTheStatusWord := by
  unfold Obligations.RdstatReturnsTheStatusWord
  intro s
  refine ⟨_, rfl, ?_⟩
  simp only [statWord_toNat, stalled_iff, failsafe_iff]

end Sys2Proof.Machine
end

section
/-! SUPPORT. The statements of 41_pulse_timer.md: what an `EDGE` does, the window that ten spaced edges
close, and the order in time of the timing registers. -/

namespace Sys2Proof.Machine

open Sys2Proof.Safety

/-! ### One sensor transition -/

/-- The three completions of an `EDGE` (41_pulse_timer.md R80): discarded, counted, or counted and closing
the window. -/
theorem exec_edge_cases (s : State) :
    (age s.now s.pulse.lastEdge < 1 ∧ exec .edge s = .next (s.returnWord 0)) ∨
    (1 ≤ age s.now s.pulse.lastEdge ∧ ∃ h : s.pulse.edgeCount.val + 1 < 10,
      exec .edge s = .next ((s.setPulse ⟨⟨s.pulse.edgeCount.val + 1, h⟩, s.pulse.windowStart, s.now,
        s.pulse.windowDuration⟩).returnWord 1)) ∨
    (1 ≤ age s.now s.pulse.lastEdge ∧ s.pulse.edgeCount.val + 1 = 10 ∧
      exec .edge s = .next
        ((s.setPulse ⟨0, s.now, s.now, s.now - s.pulse.windowStart⟩).returnWord 3)) := by
  have hexec : exec .edge s = .next
      ((s.setPulse (takeEdge s.now s.pulse).1).returnWord (takeEdge s.now s.pulse).2) := rfl
  rw [hexec]
  obtain ⟨hage, htake⟩ | ⟨hage, hcount, htake⟩ | ⟨hage, hcount, htake⟩ :=
    takeEdge_cases s.now s.pulse
  · rw [htake]; exact .inl ⟨hage, rfl⟩
  · rw [htake]; exact .inr (.inl ⟨hage, hcount, rfl⟩)
  · rw [htake]; exact .inr (.inr ⟨hage, hcount, rfl⟩)

section

variable {s : State}

theorem exec_edge_of_bounce (hage : age s.now s.pulse.lastEdge < 1) :
    exec .edge s = .next (s.returnWord 0) := by
  obtain ⟨-, h⟩ | ⟨hage', -⟩ | ⟨hage', -⟩ := exec_edge_cases s
  · exact h
  · omega
  · omega

theorem exec_edge_of_count (hage : 1 ≤ age s.now s.pulse.lastEdge)
    (hcount : s.pulse.edgeCount.val + 1 < 10) :
    exec .edge s = .next ((s.setPulse ⟨⟨s.pulse.edgeCount.val + 1, hcount⟩, s.pulse.windowStart,
      s.now, s.pulse.windowDuration⟩).returnWord 1) := by
  obtain ⟨hage', -⟩ | ⟨-, _, h⟩ | ⟨-, hcount', -⟩ := exec_edge_cases s
  · omega
  · exact h
  · omega

theorem exec_edge_of_close (hage : 1 ≤ age s.now s.pulse.lastEdge)
    (hcount : s.pulse.edgeCount.val + 1 = 10) :
    exec .edge s = .next
      ((s.setPulse ⟨0, s.now, s.now, s.now - s.pulse.windowStart⟩).returnWord 3) := by
  obtain ⟨hage', -⟩ | ⟨-, hcount', -⟩ | ⟨-, -, h⟩ := exec_edge_cases s
  · omega
  · omega
  · exact h

/-- An edge that qualifies moves `last_edge` to `now`, which is another value: its age was not 0. -/
theorem exec_edge_keeps_lastEdge_iff {t : State} (h : exec .edge s = .next t) :
    t.pulse.lastEdge = s.pulse.lastEdge ↔ age s.now s.pulse.lastEdge < 1 := by
  have hmoves (hage : 1 ≤ age s.now s.pulse.lastEdge) : s.now ≠ s.pulse.lastEdge := fun heq => by
    rw [← heq, age_of_le le_rfl, Nat.sub_self] at hage
    omega
  obtain ⟨hage, hexec⟩ | ⟨hage, _, hexec⟩ | ⟨hage, -, hexec⟩ := exec_edge_cases s
  · cases hexec.symm.trans h
    exact iff_of_true rfl hage
  · cases hexec.symm.trans h
    exact iff_of_false (hmoves hage) (Nat.not_lt.2 hage)
  · cases hexec.symm.trans h
    exact iff_of_false (hmoves hage) (Nat.not_lt.2 hage)

end

/-- Settles O11: the clauses are the three completions, each with its guard. -/
theorem edgeTakesOneTransition : Obligations.EdgeTakesOneTransition := by
  unfold Obligations.EdgeTakesOneTransition
  intro s
  obtain ⟨hage, h⟩ | ⟨hage, hcount, h⟩ | ⟨hage, hcount, h⟩ := exec_edge_cases s
  · exact ⟨_, _, h, rfl, fun _ => ⟨rfl, rfl⟩, fun h1 => absurd hage (Nat.not_lt.2 h1), rfl, rfl,
      rfl⟩
  · exact ⟨_, _, h, rfl, fun h0 => absurd h0 (Nat.not_lt.2 hage),
      fun _ => ⟨rfl, fun h10 => absurd h10 hcount.ne, fun _ => ⟨rfl, rfl, rfl, rfl⟩⟩, rfl, rfl, rfl⟩
  · exact ⟨_, _, h, rfl, fun h0 => absurd h0 (Nat.not_lt.2 hage),
      fun _ => ⟨rfl, fun _ => ⟨rfl, rfl, rfl, rfl⟩, fun h10 => absurd hcount h10⟩, rfl, rfl, rfl⟩

/-- Settles O12: an edge that left the state but for its word left `last_edge`. -/
theorem edgeDiscardedExactlyWhenBouncing : Obligations.EdgeDiscardedExactlyWhenBouncing := by
  unfold Obligations.EdgeDiscardedExactlyWhenBouncing
  exact fun s => ⟨⟨fun h => (exec_edge_keeps_lastEdge_iff h).1 rfl, exec_edge_of_bounce⟩,
    fun t h => exec_edge_keeps_lastEdge_iff h⟩

/-- Settles O13: the one effect of `EDGE` sets PulseTimingState and returns a word. -/
theorem edgeWritesPulseTimingAlone : Obligations.EdgeWritesPulseTimingAlone := by
  unfold Obligations.EdgeWritesPulseTimingAlone
  intro s t h
  cases exec_effect h with
  | read _ _ _ hedge => exact absurd rfl hedge
  | edge => exact ⟨rfl, rfl, fun _ => rfl, fun _ => rfl, rfl, rfl, rfl⟩

/-! ### A whole window (41_pulse_timer.md R82) -/

/-- The step of an `EDGE` on the port. -/
theorem step_edge {s : State} {u : Time} {rest : List Input}
    (hport : s.pending = .op ⟨encode .edge, u⟩ :: rest) :
    step s = exec .edge (s.accept u rest) :=
  step_of_decode hport (decode_encode rfl)

/-- Spaced edges, as many as the count lacks to ten, run to the close of the window at the last of them.
By induction on the edges after the next one: with none left it closes the window, otherwise it is
counted and leaves one edge fewer to come. -/
theorem run_spaced_edges_closes {ts : List Time} {s : State} {u : Time} {rest : List Input}
    (hcount : s.pulse.edgeCount.val + ts.length + 1 = 10)
    (hspaced : List.IsChain (fun a b : Time => 1 ≤ age b a) (s.pulse.lastEdge :: u :: ts))
    (hport : s.pending = (u :: ts).map (fun t => Input.op ⟨encode .edge, t⟩) ++ rest) :
    Host.Core.run Sys2Proof.core (ts.length + 1) s = .next { s with
      pulse := ⟨0, ts.getLastD u, ts.getLastD u, ts.getLastD u - s.pulse.windowStart⟩
      now := ts.getLastD u
      pending := rest
      results := s.results ++ (List.replicate ts.length 1 ++ [3]) } := by
  induction ts generalizing s u with
  | nil =>
    obtain ⟨hage, -⟩ := List.isChain_cons_cons.1 hspaced
    exact run_succ_of_next 0 ((step_edge hport).trans (exec_edge_of_close hage hcount))
  | cons v ts ih =>
    rw [List.length_cons] at hcount
    obtain ⟨hage, htail⟩ := List.isChain_cons_cons.1 hspaced
    have hlow : s.pulse.edgeCount.val + 1 < 10 := by omega
    have hcount' : s.pulse.edgeCount.val + 1 + ts.length + 1 = 10 := by omega
    have hstep := (step_edge hport).trans (exec_edge_of_count (s := s.accept u _) hage hlow)
    rw [List.length_cons, run_succ_of_next _ hstep, ih hcount' htail rfl]
    simp [List.replicate_succ, List.getLast?_cons]

/-- Settles O14: from a fresh count ten edges are what a window lacks. -/
theorem tenSpacedEdgesCloseOneWindow : Obligations.TenSpacedEdgesCloseOneWindow := by
  unfold Obligations.TenSpacedEdgesCloseOneWindow
  intro s ts rest hcount hlen hspaced hport
  cases ts with
  | nil => cases hlen
  | cons u ts =>
    have hlen' : ts.length = 9 := Nat.succ.inj hlen
    have hrun := run_spaced_edges_closes (by omega) hspaced hport
    rw [hlen'] at hrun
    have hlast : (u :: ts).getLast? = some (ts.getLastD u) := by
      rw [List.getLast?_cons, List.getLastD_eq_getLast?]
    exact ⟨_, hrun, rfl, rfl, hlast, rfl, rfl, rfl, rfl, rfl⟩

/-! ### The order of the timing registers (41_pulse_timer.md R86) -/

/-- The invariant with this hardware's numbers. -/
theorem windowTiming_iff (s : State) :
    WindowTiming s ↔
      s.pulse.windowStart.toNat + s.pulse.edgeCount.val ≤ s.pulse.lastEdge.toNat ∧
      s.pulse.lastEdge.toNat ≤ s.now.toNat ∧
      (s.pulse.windowDuration.toNat = 0 ∨ 10 ≤ s.pulse.windowDuration.toNat) := by
  simp [WindowTiming]

/-- After a reset the registers agree, and no window has closed (41_pulse_timer.md R83). -/
theorem resetBlock_windowTiming (now0 : Time) (s : State) : WindowTiming (resetBlock now0 s) := by
  simp [windowTiming_iff]

theorem accept_keeps_windowTiming {s : State} {u : Time} (rest : List Input) (hs : WindowTiming s)
    (hclock : s.now.toNat ≤ u.toNat) : WindowTiming (s.accept u rest) := by
  obtain ⟨hedges, hlast, hduration⟩ := hs
  exact ⟨hedges, hlast.trans hclock, hduration⟩

/-- A counted edge is at least 1 ms after the one before, so the count stays within the time since the
window opened; the tenth then comes 10 ms after that at least. -/
theorem exec_edge_keeps_windowTiming {s t : State} (hs : WindowTiming s)
    (h : exec .edge s = .next t) : WindowTiming t := by
  obtain ⟨hedges, hlast, hduration⟩ := (windowTiming_iff s).1 hs
  have hage := age_of_le hlast
  obtain ⟨-, hexec⟩ | ⟨hqualifies, _, hexec⟩ | ⟨hqualifies, hcount, hexec⟩ := exec_edge_cases s
  · cases hexec.symm.trans h
    exact hs
  · cases hexec.symm.trans h
    have hedges' : s.pulse.windowStart.toNat + (s.pulse.edgeCount.val + 1) ≤ s.now.toNat := by omega
    exact (windowTiming_iff _).2 ⟨hedges', le_rfl, hduration⟩
  · cases hexec.symm.trans h
    have hwindow : age s.now s.pulse.windowStart = s.now.toNat - s.pulse.windowStart.toNat :=
      age_of_le (by omega)
    have hduration' : 10 ≤ age s.now s.pulse.windowStart := by omega
    exact (windowTiming_iff _).2 ⟨le_rfl, le_rfl, .inr hduration'⟩

/-- `EDGE` alone writes the timing registers, and no operation moves the clock. -/
theorem exec_keeps_windowTiming {i : Instr} {s t : State} (hs : WindowTiming s)
    (h : exec i s = .next t) : WindowTiming t := by
  cases exec_effect h with
  | edge => exact exec_edge_keeps_windowTiming hs h
  | read | tickQuiet | tickDiscards | rxbStores | rxbLatches => exact hs

/-- Settles O15: the port is quiet, a reset sets the registers, or an operation runs on the accepted
state, whose clock has not stepped backward. -/
theorem windowTimingIsKept : Obligations.WindowTimingIsKept := by
  unfold Obligations.WindowTimingIsKept
  intro s t hs hclock h
  obtain ⟨-, rfl⟩ | ⟨now0, rest, -, rfl⟩ | ⟨tr, rest, i, hport, -, hexec⟩ := step_cases h
  · exact hs
  · exact resetBlock_windowTiming now0 _
  · have hforward : s.now.toNat ≤ tr.now.toNat := by simpa [ClockAdvances, hport] using hclock
    exact exec_keeps_windowTiming (accept_keeps_windowTiming rest hs hforward) hexec

end Sys2Proof.Machine
end

section
/-! SUPPORT. The statements of 42_speed_estimator.md: the clamps, the speed and the pulses value as numbers,
and the words that `RDSPD`, `RDPUL` and `RDSTAT` return for them. -/

namespace Sys2Proof.Machine

/-! ### The clamps (42_speed_estimator.md R91, R92) -/

theorem clampSpeed_zero_or_in_range (r : Nat) :
    clampSpeed Config.params r = 0 ∨
      (10 ≤ clampSpeed Config.params r ∧ clampSpeed Config.params r ≤ 990) := by
  rw [clampSpeed_eq]
  split
  · exact .inl rfl
  · split <;> omega

theorem clampSpeed_eq_zero_iff (r : Nat) : clampSpeed Config.params r = 0 ↔ r < 10 := by
  rw [clampSpeed_eq]
  split
  · next hlow => exact iff_of_true rfl hlow
  · split <;> omega

theorem clampSpeed_eq_ceiling_iff (r : Nat) : clampSpeed Config.params r = 990 ↔ 990 ≤ r := by
  rw [clampSpeed_eq]
  split
  · omega
  · split <;> omega

/-- Settles O20: a floor quotient is compared with a whole number as the exact quotient is. -/
theorem clampsAgreeWithTheExactQuotient : Obligations.ClampsAgreeWithTheExactQuotient := by
  unfold Obligations.ClampsAgreeWithTheExactQuotient
  intro D M T hM hT
  have hdivisor : 0 < 113 * M * T := by positivity
  rw [clampSpeed_eq_zero_iff, clampSpeed_eq_ceiling_iff, speedRaw_eq]
  exact ⟨Nat.div_lt_iff_lt_mul hdivisor, Nat.le_div_iff_mul_le hdivisor⟩

/-! ### The speed -/

section

variable (L : Layout Config.params) (s : State)

/-- SPEED by its three tests and the clamped quotient, from the fields it reads. -/
theorem State.speed_eq :
    s.speed L =
      if stalled s.now s.pulse then 0 else if (s.params L).magnetCount.toNat = 0 then 0
      else clampSpeed Config.params (speedRaw Config.params (s.params L).wheelDiameterMm.toNat
        (s.params L).magnetCount.toNat s.pulse.windowDuration.toNat) :=
  speedOf_eq ..

theorem State.speed_zero_or_in_range :
    s.speed L = 0 ∨ (10 ≤ s.speed L ∧ s.speed L ≤ 990) := by
  rw [State.speed_eq]
  split
  · exact .inl rfl
  · split
    · exact .inl rfl
    · exact clampSpeed_zero_or_in_range _

/-- The speed fits its result word. -/
theorem State.speed_word_toNat : (BitVec.ofNat 16 (s.speed L)).toNat = s.speed L := by
  have hrange := s.speed_zero_or_in_range L
  exact Nat.mod_eq_of_lt (by omega)

variable {L s}

/-- A stalled sensor forces the speed to 0 (42_speed_estimator.md R98). -/
theorem State.speed_of_stalled (h : stalled s.now s.pulse = true) : s.speed L = 0 := by
  rw [State.speed_eq, if_pos h]

/-- Without magnets the third test answers; without a wheel the quotient is under the floor
(42_speed_estimator.md R93). -/
theorem State.speed_of_no_magnets_or_no_wheel
    (h : (s.params L).magnetCount = 0 ∨ (s.params L).wheelDiameterMm = 0) : s.speed L = 0 := by
  rw [State.speed_eq]
  split
  · rfl
  · obtain hmagnets | hwheel := h
    · simp [hmagnets]
    · split
      · rfl
      · rw [clampSpeed_eq_zero_iff, speedRaw_eq]
        simp [hwheel]

end

/-- Settles O19, under every layout. -/
theorem speedIsZeroOrInRange : Obligations.SpeedIsZeroOrInRange := by
  unfold Obligations.SpeedIsZeroOrInRange
  exact fun L s => s.speed_zero_or_in_range L

/-! ### The pulses value -/

section

variable (L : Layout Config.params) (s : State)

theorem State.pulses_eq :
    s.pulses L = if s.speed L = 0 then 0x1770
      else min 0xFFFF (36 * 355 * (s.params L).wheelDiameterMm.toNat / (113 * s.speed L)) := rfl

/-- The pulses value fits its result word: the sentinel does, and the interval is saturated to it. -/
theorem State.pulses_word_toNat : (BitVec.ofNat 16 (s.pulses L)).toNat = s.pulses L := by
  have hfits : s.pulses L ≤ 0xFFFF := by
    rw [State.pulses_eq]
    split
    · decide
    · exact min_le_left ..
  exact Nat.mod_eq_of_lt (by omega)

end

/-! ### The words the reads return -/

section

variable (s : State)

theorem exec_rdspd :
    exec .rdspd s = .next (s.returnWord (BitVec.ofNat 16 (s.speed Config.layout))) := rfl

theorem exec_rdpul :
    exec .rdpul s = .next (s.returnWord (BitVec.ofNat 16 (s.pulses Config.layout))) := rfl

theorem exec_rdstat :
    exec .rdstat s = .next (s.returnWord
      (statWord s.link.cursor (stalled s.now s.pulse) (failsafe s.now s.link))) := rfl

variable {s}

/-- At speed 0 the reads return 0 and the stationary sentinel (42_speed_estimator.md R95). -/
theorem exec_rdspd_rdpul_of_speed_zero (h : s.speed Config.layout = 0) :
    exec .rdspd s = .next (s.returnWord 0) ∧ exec .rdpul s = .next (s.returnWord 0x1770) := by
  rw [exec_rdspd, exec_rdpul, State.pulses_eq, if_pos h, h]
  exact ⟨rfl, rfl⟩

end

/-- Bit 1 of the status word is the stalled level (30_encoding.md R71). -/
theorem statWord_getLsbD_one {P : Params} (cursor : P.FrameIndex) (st fs : Bool) :
    (statWord cursor st fs).getLsbD 1 = st := by
  rw [← BitVec.testBit_toNat, statWord_toNat, Nat.testBit_eq_decide_div_mod_eq]
  cases st <;> cases fs <;> simp <;> omega

/-! ### The statements -/

/-- Settles O17: the first two tests are the stalled level's, and the quotient fits the word. -/
theorem rdspdReturnsTheSpeedEstimate : Obligations.RdspdReturnsTheSpeedEstimate := by
  unfold Obligations.RdspdReturnsTheSpeedEstimate
  intro s
  refine ⟨_, exec_rdspd s, ?_⟩
  rw [State.speed_word_toNat, State.speed_eq, speedRaw_eq, clampSpeed_eq]
  simp only [stalled_iff, ite_or, BitVec.toNat_eq]
  rfl

/-- Settles O18: both words read back as the speed and the pulses value. -/
theorem rdpulReturnsThePulsesValue : Obligations.RdpulReturnsThePulsesValue := by
  unfold Obligations.RdpulReturnsThePulsesValue
  intro s
  refine ⟨_, _, exec_rdspd s, exec_rdpul s, ?_⟩
  rw [State.pulses_word_toNat, State.speed_word_toNat, State.pulses_eq]

/-- Settles O21: either makes the speed 0. -/
theorem noMagnetsOrNoWheelMeansStationary : Obligations.NoMagnetsOrNoWheelMeansStationary := by
  unfold Obligations.NoMagnetsOrNoWheelMeansStationary
  exact fun s h => exec_rdspd_rdpul_of_speed_zero (State.speed_of_no_magnets_or_no_wheel h)

/-- Settles O22: the bit is the stalled level, which is the speed estimate's first guard. -/
theorem stalledForcesSpeedZero : Obligations.StalledForcesSpeedZero := by
  unfold Obligations.StalledForcesSpeedZero
  intro s
  refine ⟨_, exec_rdstat s, ?_⟩
  rw [statWord_getLsbD_one]
  exact ⟨stalled_iff s.now s.pulse,
    fun h => (exec_rdspd_rdpul_of_speed_zero (State.speed_of_stalled h)).1⟩

/-- Settles O23: the speed, and from it the pulses value, is the same function of the inputs named. -/
theorem estimateReadsOnlyItsInputs : Obligations.EstimateReadsOnlyItsInputs := by
  unfold Obligations.EstimateReadsOnlyItsInputs
  intro s s' hnow hduration hstart hwheel hmagnets
  have hstalled : stalled s.now s.pulse = stalled s'.now s'.pulse := by
    rw [Bool.eq_iff_iff, stalled_iff, stalled_iff, hnow, hduration, hstart]
  have hspeed : s.speed Config.layout = s'.speed Config.layout := by
    rw [State.speed_eq, State.speed_eq, hstalled, hduration, hwheel, hmagnets]
  have hpulses : s.pulses Config.layout = s'.pulses Config.layout := by
    rw [State.pulses_eq, State.pulses_eq, hspeed, hwheel]
  exact ⟨_, _, exec_rdspd s, hspeed ▸ exec_rdspd s', exec_rdpul s, hpulses ▸ exec_rdpul s'⟩

end Sys2Proof.Machine
end

section
/-! SUPPORT. The statements of 43_framer.md: what an `RXB` does by the index its byte goes to, the checksum
over flipped bits, the replies, and the twenty bytes that make a frame. -/

namespace Sys2Proof.Machine

open Sys2Proof.Safety

/-! ### The replies (43_framer.md R118 to R120) -/

/-- Every reply is a frame of its own: 14 bytes whose last is the checksum. -/
theorem encodeReply_valid (p : Word) :
    (encodeReply Config.params p).length = Config.params.replyLen ∧
      checksumOk (encodeReply Config.params p) = true := by
  obtain ⟨_, _, -, -, hlen, hok⟩ := replyFrameLayout p
  exact ⟨hlen, hok⟩

/-- One operation adds at most one reply, which `encodeReply` has made. -/
theorem exec_keeps_repliesValid {i : Instr} {s t : State} (hs : RepliesValid s)
    (h : exec i s = .next t) : RepliesValid t := by
  cases exec_effect h with
  | rxbLatches b =>
    intro f hf
    obtain hold | hnew := List.mem_append.1 hf
    · exact hs f hold
    · rw [List.mem_singleton.1 hnew]
      exact encodeReply_valid _
  | read | edge | tickQuiet | tickDiscards | rxbStores => exact hs

/-- Settles O37: the port is quiet, a reset emits nothing, or an operation runs on the accepted state. -/
theorem emittedRepliesStayValid : Obligations.EmittedRepliesStayValid := by
  unfold Obligations.EmittedRepliesStayValid
  intro s t hs h
  obtain ⟨-, rfl⟩ | ⟨now0, rest, -, rfl⟩ | ⟨tr, rest, i, -, -, hexec⟩ := step_cases h
  · exact hs
  · exact hs
  · have haccepted : RepliesValid (s.accept tr.now rest) := hs
    exact exec_keeps_repliesValid haccepted hexec

/-! ### Where a byte goes, and what it completes -/

section

variable {u : Time} {b : Byte} {l : LinkState Config.params}

/-- A byte that completes a frame ends no silence: after a silence it would be at index 0. -/
theorem silenceExpired_of_last (h : (storeIndex u l).val + 1 = 20) : silenceExpired u l = false := by
  cases hsilence : silenceExpired u l with
  | false => rfl
  | true => simp [storeIndex_of_silence hsilence] at h

theorem storeIndex_of_frameValid (h : frameOutcome u b l = .frameValid) :
    (storeIndex u l).val + 1 = 20 := by
  obtain ⟨hinc, -⟩ | ⟨-, hk, -⟩ | ⟨hbad, -⟩ := frameOutcome_cases u b l
  · simp [h] at hinc
  · exact hk
  · simp [h] at hbad

theorem frameOutcome_of_lt (hk : (storeIndex u l).val + 1 < 20) :
    frameOutcome u b l = .incomplete := by
  obtain ⟨h, -⟩ | ⟨-, hk', -⟩ | ⟨-, hk', -⟩ := frameOutcome_cases u b l
  · exact h
  · omega
  · omega

theorem frameOutcome_of_last (hk : (storeIndex u l).val + 1 = 20) :
    frameOutcome u b l =
      if checksumOk (Memory.bytes Config.params (storeByte u b l).rxbuf) then .frameValid
      else .checksumMismatch := by
  obtain ⟨-, hk'⟩ | ⟨h, -, hok⟩ | ⟨h, -, hbad⟩ := frameOutcome_cases u b l
  · omega
  · rw [h, if_pos hok]
  · rw [h, hbad]; rfl

theorem cursorAfter_val (k : FrameIndex) :
    (cursorAfter k).val = if k.val = 19 then 0 else k.val + 1 := by
  have hk : k.val < 20 := k.isLt
  split
  · next hlast => rw [cursorAfter_last (by simp [hlast])]; rfl
  · next hlast => rw [cursorAfter_of_lt (by simp; omega)]

theorem storeIndex_val :
    (storeIndex u l).val = if silenceExpired u l = true then 0 else l.cursor.val := by
  rw [storeIndex_eq]
  split <;> rfl

end

/-! ### The three completions of `RXB` (43_framer.md R113) -/

section

variable {s : State} {k : FrameIndex} (b : Byte) (hindex : storeIndex s.now s.link = k)

include hindex

/-- A byte short of the last is stored, and the cursor is behind it. -/
theorem exec_rxb_of_lt (hk : k.val + 1 < 20) :
    exec (.rxb b) s = .next
      { s with
        link := { cursor := ⟨k.val + 1, hk⟩
                  rxbuf := Memory.write s.link.rxbuf k b
                  lastByteTs := s.now, lastValidTs := s.link.lastValidTs }
        results := s.results ++ [if silenceExpired s.now s.link then 4 else 0] } := by
  subst hindex
  have hword : rxbWord (silenceExpired s.now s.link) .incomplete
      = if silenceExpired s.now s.link then 4 else 0 := by
    cases silenceExpired s.now s.link <;> rfl
  simp only [exec, execRxb, frameOutcome_of_lt hk, hword, complete_eq, storeByte, cursorAfter_of_lt hk]
  rfl

/-- A last byte with a wrong checksum is stored, and the cursor returns (43_framer.md R117). -/
theorem exec_rxb_of_mismatch (hk : k.val + 1 = 20)
    (hbad : checksumOk (Memory.bytes Config.params (Memory.write s.link.rxbuf k b)) = false) :
    exec (.rxb b) s = .next
      { s with
        link := { cursor := 0
                  rxbuf := Memory.write s.link.rxbuf k b
                  lastByteTs := s.now, lastValidTs := s.link.lastValidTs }
        results := s.results ++ [2] } := by
  subst hindex
  have houtcome : frameOutcome s.now b s.link = .checksumMismatch := by
    rw [frameOutcome_of_last hk, storeByte_rxbuf, hbad]
    rfl
  simp only [exec, execRxb, houtcome, silenceExpired_of_last hk, complete_eq, storeByte,
    cursorAfter_last hk]
  rfl

/-- A last byte with a right checksum also latches the frame and emits the reply (43_framer.md R116). -/
theorem exec_rxb_of_valid (hk : k.val + 1 = 20)
    (hok : checksumOk (Memory.bytes Config.params (Memory.write s.link.rxbuf k b)) = true) :
    exec (.rxb b) s = .next
      { s with
        link := { cursor := 0
                  rxbuf := Memory.write s.link.rxbuf k b
                  lastByteTs := s.now, lastValidTs := s.now }
        pframe := Memory.write s.link.rxbuf k b
        results := s.results ++ [1]
        replies := s.replies ++ [encodeReply Config.params (BitVec.ofNat 16
          ({ s with pframe := Memory.write s.link.rxbuf k b }.pulses Config.layout))] } := by
  subst hindex
  have houtcome : frameOutcome s.now b s.link = .frameValid := by
    rw [frameOutcome_of_last hk, storeByte_rxbuf, if_pos hok]
  simp only [exec, execRxb, houtcome, silenceExpired_of_last hk, complete_eq, storeByte,
    cursorAfter_last hk]
  rfl

end

/-- Settles O24: the flag is the silence test and the index is the store index. -/
theorem rxbTakesOneByte : Obligations.RxbTakesOneByte := by
  unfold Obligations.RxbTakesOneByte
  intro b s timeout k buf htimeout hk hbuf
  have hflag : timeout = silenceExpired s.now s.link := by
    rw [Bool.eq_iff_iff, htimeout, silenceExpired_iff]
  have hindex : storeIndex s.now s.link = k := by rw [hk, hflag, storeIndex_eq]
  subst hbuf hflag
  exact ⟨exec_rxb_of_lt b hindex, exec_rxb_of_mismatch b hindex, exec_rxb_of_valid b hindex⟩

/-- Settles O26: the one byte written is the last. -/
theorem badChecksumLeavesParametersAlone : Obligations.BadChecksumLeavesParametersAlone := by
  unfold Obligations.BadChecksumLeavesParametersAlone
  intro b s t h hk hbad
  have hlast : storeIndex s.now s.link = 19 := Fin.ext (Nat.succ.inj hk)
  rw [exec_rxb_rxbuf h, hlast] at hbad
  cases (exec_rxb_of_mismatch b hlast rfl hbad).symm.trans h
  exact ⟨rfl, rfl, rfl, rfl, rfl, rfl,
    fun k hne => Memory.read_write_other _ hne b, fun _ => rfl⟩

/-- Settles O31: after the silence the byte goes to index 0. -/
theorem noByteJoinsAStalePartialFrame : Obligations.NoByteJoinsAStalePartialFrame := by
  unfold Obligations.NoByteJoinsAStalePartialFrame
  intro b s hcursor hage
  have hsilence : silenceExpired s.now s.link = true := (silenceExpired_iff _ _).2 ⟨hcursor, hage⟩
  have hfirst : storeIndex s.now s.link = 0 := storeIndex_of_silence hsilence
  refine ⟨_, exec_rxb_of_lt b hfirst (by decide), ?_, rfl, fun hwf => ?_, rfl⟩
  · simp [hsilence]
  · exact Memory.read_write_self hwf 0 b

/-- Settles O32: the cursor's rule for each effect. -/
theorem cursorMovesOnlyByTheseRules : Obligations.CursorMovesOnlyByTheseRules := by
  unfold Obligations.CursorMovesOnlyByTheseRules
  intro i s t h
  refine ⟨?_, ?_, exec_keeps_cursor h⟩
  · rintro b rfl k rfl
    have hcursor : t.link.cursor = cursorAfter (storeIndex s.now s.link) := by
      cases exec_effect h with
      | read _ hrxb => exact absurd rfl (hrxb b)
      | rxbStores | rxbLatches => rfl
    rw [hcursor, cursorAfter_val, storeIndex_val]
  · rintro rfl
    cases exec_effect h with
    | read _ _ htick => exact absurd rfl htick
    | tickQuiet hquiet => rw [hquiet]; rfl
    | tickDiscards hsilence => rw [hsilence]; rfl

/-! ### The latched frame and its reply -/

/-- `RDFRM` returns the byte that `pframe` holds at an index below `FRAME_LEN`. -/
theorem exec_rdfrm {i : BitVec 5} {s : State} {c : Byte} (hi : i.toNat < 20)
    (hread : Memory.read s.pframe (⟨i.toNat, hi⟩ : FrameIndex) = c) :
    exec (.rdfrm i) s = .next (s.returnWord (c.setWidth 16)) := by
  subst hread
  exact dif_pos hi

/-- Settles O27: `pframe` is the buffer with the byte written last. -/
theorem latchedFrameIsReadBack : Obligations.LatchedFrameIsReadBack := by
  unfold Obligations.LatchedFrameIsReadBack
  intro b s t hwf h hvalid
  have hlast : storeIndex s.now s.link = 19 :=
    Fin.ext (Nat.succ.inj (storeIndex_of_frameValid hvalid))
  have hok := checksumOk_of_frameValid hvalid
  rw [storeByte_rxbuf, hlast] at hok
  cases (exec_rxb_of_valid b hlast rfl hok).symm.trans h
  refine ⟨rfl, ?_, fun i hi => ?_⟩
  · exact exec_rdfrm (by decide) (Memory.read_write_self hwf (19 : FrameIndex) b)
  · have hi' : i.toNat < 20 := by omega
    have hne : (⟨i.toNat, hi'⟩ : FrameIndex) ≠ 19 := fun heq => hi.ne (congrArg Fin.val heq)
    exact exec_rdfrm hi' (Memory.read_write_other _ hne b)

/-- Settles O28: only the effect that latches a frame emits, and it reports no timeout. -/
theorem replyExactlyOnAValidFrame : Obligations.ReplyExactlyOnAValidFrame := by
  unfold Obligations.ReplyExactlyOnAValidFrame
  intro i s t h
  cases exec_effect h with
  | read _ hrxb => exact .inl ⟨rfl, fun ⟨b, hi, _⟩ => hrxb b hi⟩
  | edge | tickQuiet | tickDiscards => exact .inl ⟨rfl, fun ⟨_, hi, _⟩ => nomatch hi⟩
  | rxbStores b hinvalid =>
    refine .inl ⟨rfl, ?_⟩
    rintro ⟨b', hi, hvalid⟩
    cases hi
    exact hinvalid hvalid
  | rxbLatches b hvalid =>
    have hquiet := silenceExpired_of_last (storeIndex_of_frameValid hvalid)
    refine .inr ⟨rfl, b, rfl, hvalid, ?_⟩
    rw [hquiet]
    rfl

/-! ### The checksum over flipped bits (43_framer.md R111) -/

/-- With the checksum byte itself included, a frame's bytes XOR to 0. -/
theorem checksumOk_iff_xorAll {f : List Byte} (hf : f ≠ []) : checksumOk f = true ↔ xorAll f = 0 := by
  obtain ⟨bs, c, rfl⟩ := (List.eq_nil_or_concat' f).resolve_left hf
  rw [checksumOk_append, xorAll_append, eq_comm]
  simp [← BitVec.xor_eq_zero_iff]

/-- A change of one byte changes the XOR by as much. -/
theorem xorAll_set_xor (d : Byte) {f : List Byte} {n : Nat} (h : n < f.length) :
    xorAll (f.set n (f[n] ^^^ d)) = xorAll f ^^^ d := by
  induction f generalizing n with
  | nil => cases h
  | cons b f ih =>
    cases n with
    | zero =>
      simp only [List.set_cons_zero, List.getElem_cons_zero, xorAll_cons]
      ac_rfl
    | succ n =>
      simp only [List.set_cons_succ, List.getElem_cons_succ, xorAll_cons]
      rw [ih (Nat.lt_of_succ_lt_succ h), BitVec.xor_assoc]

/-- The same change in several bytes cancels in pairs. -/
theorem xorAll_zipWith_xor (d : Byte) {f : List Byte} {flips : List Bool}
    (h : flips.length = f.length) :
    xorAll (List.zipWith (fun b x => if x then b ^^^ d else b) f flips)
      = xorAll f ^^^ (if flips.count true % 2 = 0 then 0 else d) := by
  induction f generalizing flips with
  | nil =>
    cases List.length_eq_zero_iff.1 h
    simp
  | cons b f ih =>
    cases flips with
    | nil => cases h
    | cons x flips =>
      rw [List.zipWith_cons_cons, xorAll_cons, xorAll_cons, ih (Nat.succ.inj h), BitVec.xor_assoc]
      cases x with
      | false => simp
      | true =>
        have hparity : d ^^^ (if flips.count true % 2 = 0 then 0 else d)
            = if (flips.count true + 1) % 2 = 0 then 0 else d := by
          obtain heven | hodd := Nat.mod_two_eq_zero_or_one (flips.count true)
          · simp [heven, Nat.add_mod]
          · simp [hodd, Nat.add_mod]
        rw [List.count_cons_self, ← hparity, if_pos rfl]
        ac_rfl

theorem twoPow_ne_zero {k : Nat} (hk : k < 8) : BitVec.twoPow 8 k ≠ 0 := fun h => by
  have hbit : (BitVec.twoPow 8 k).getLsbD k = true := by simp [hk]
  rw [h] at hbit
  simp at hbit

/-- Settles O30: both claims are what the flips do to the XOR of all bytes. -/
theorem checksumDetectsEverySingleBitFlip : Obligations.ChecksumDetectsEverySingleBitFlip := by
  unfold Obligations.ChecksumDetectsEverySingleBitFlip
  intro f hlen
  have hne : f ≠ [] := List.ne_nil_of_length_pos (by omega)
  refine ⟨checksumOk_iff_xorAll hne, fun hok k hk => ⟨fun n hn => ?_, fun flips hflips heven => ?_⟩⟩
  · have hset : f.set n (f[n] ^^^ BitVec.twoPow 8 k) ≠ [] := by simpa using hne
    rw [← Bool.not_eq_true, checksumOk_iff_xorAll hset, xorAll_set_xor,
      (checksumOk_iff_xorAll hne).1 hok]
    simpa using twoPow_ne_zero hk
  · have hzip : List.zipWith (fun b x => if x then b ^^^ BitVec.twoPow 8 k else b) f flips ≠ [] :=
      List.ne_nil_of_length_pos (by rw [List.length_zipWith]; omega)
    rw [checksumOk_iff_xorAll hzip, xorAll_zipWith_xor _ hflips, if_pos heven]
    simpa using (checksumOk_iff_xorAll hne).1 hok

/-! ### A whole frame (43_framer.md R122, R123) -/

/-- Of the bytes received and those to come, the store moves one to the received. -/
theorem Memory.take_bytes_append_cons {P : Params} {m : Memory} (h : Memory.wf P m = true)
    (k : P.FrameIndex) (b : Byte) (bs : List Byte) :
    (Memory.bytes P m).take k.val ++ b :: bs
      = (Memory.bytes P (Memory.write m k b)).take (k.val + 1) ++ bs := by
  have hk : k.val < ((Memory.bytes P m).set k.val b).length := by simp
  rw [Memory.bytes_write h, List.take_succ_eq_append_getElem hk, List.take_set_of_le le_rfl,
    List.getElem_set_self, List.append_assoc, List.singleton_append]

/-- The step of an `RXB` on the port. -/
theorem step_rxb {s : State} {b : Byte} {u : Time} {rest : List Input}
    (hport : s.pending = .op ⟨encode (.rxb b), u⟩ :: rest) :
    step s = exec (.rxb b) (s.accept u rest) :=
  step_of_decode hport (decode_encode rfl)

section

variable {s : State} {b : Byte} {u : Time} {rest : List Input}
  (hport : s.pending = .op ⟨encode (.rxb b), u⟩ :: rest)

include hport

/-- A byte after a silence is byte 0 of a new frame. -/
theorem step_rxb_of_silence (hsilence : silenceExpired u s.link = true) :
    step s = .next
      { s with
        link := ⟨1, Memory.write s.link.rxbuf (0 : FrameIndex) b, u, s.link.lastValidTs⟩
        now := u
        pending := rest
        results := s.results ++ [4] } := by
  rw [step_rxb hport, exec_rxb_of_lt b (storeIndex_of_silence hsilence) (by decide)]
  simp [hsilence]

/-- A byte without a silence, short of the last, joins the bytes before it. -/
theorem step_rxb_of_no_silence (hquiet : silenceExpired u s.link = false)
    (hk : s.link.cursor.val + 1 < 20) :
    step s = .next
      { s with
        link := ⟨⟨s.link.cursor.val + 1, hk⟩, Memory.write s.link.rxbuf s.link.cursor b, u,
          s.link.lastValidTs⟩
        now := u
        pending := rest
        results := s.results ++ [0] } := by
  rw [step_rxb hport,
    exec_rxb_of_lt (s := s.accept u rest) b (storeIndex_of_no_silence hquiet) hk]
  simp [hquiet]

end

/-- A gap of 50 ms or less is no silence. -/
theorem silenceExpired_of_age_le {u : Time} {l : LinkState Config.params}
    (h : age u l.lastByteTs ≤ 50) : silenceExpired u l = false := by
  rw [← Bool.not_eq_true, silenceExpired_iff]
  omega

/-- What the run that completes the frame `f` at clock value `last` has done to `s` by its end `t`: it has
returned `words`, latched `f` and emitted one reply, and `rest` is still on the port. -/
structure FrameCompleted (words : List Word) (f : List Byte) (last : Time) (rest : List Input)
    (s t : State) : Prop where
  results : t.results = s.results ++ words
  pframe : Memory.bytes Config.params t.pframe = f
  cursor : t.link.cursor.val = 0
  lastValidTs : t.link.lastValidTs = last
  pulse : t.pulse = s.pulse
  pending : t.pending = rest
  replies : t.replies = s.replies
    ++ [encodeReply Config.params (BitVec.ofNat 16 (t.pulses Config.layout))]

/-- A step ahead of such a run, which returns a word and emits nothing. -/
theorem run_succ_completes_frame {s s' : State} {n : Nat} {r : Word} {words : List Word}
    {f : List Byte} {last : Time} {rest : List Input} (hstep : step s = .next s')
    (hresults : s'.results = s.results ++ [r]) (hpulse : s'.pulse = s.pulse)
    (hreplies : s'.replies = s.replies)
    (hrun : ∃ t, Host.Core.run Sys2Proof.core n s' = .next t ∧ FrameCompleted words f last rest s' t) :
    ∃ t, Host.Core.run Sys2Proof.core (n + 1) s = .next t ∧
      FrameCompleted (r :: words) f last rest s t := by
  obtain ⟨t, hrun, hdone⟩ := hrun
  refine ⟨t, (run_succ_of_next n hstep).trans hrun, { hdone with
    results := ?_, pulse := hdone.pulse.trans hpulse, replies := hreplies ▸ hdone.replies }⟩
  rw [hdone.results, hresults, List.append_assoc, List.singleton_append]

/-- Bytes without a silence, as many as the cursor lacks to twenty, run to the latch of the frame they
complete. By induction on the bytes after the next one: with none left it completes the frame, otherwise
it is stored and leaves one byte fewer to come. -/
theorem run_rxb_completes_frame {bs : List Byte} {ts : List Time} {s : State} {b : Byte} {u : Time}
    {rest : List Input} (hwf : Memory.wf Config.params s.link.rxbuf = true)
    (hcount : s.link.cursor.val + bs.length + 1 = 20) (hlen : ts.length = bs.length)
    (hquiet : silenceExpired u s.link = false)
    (hgaps : List.IsChain (fun a b : Time => age b a ≤ 50) (u :: ts))
    (hok : checksumOk ((Memory.bytes Config.params s.link.rxbuf).take s.link.cursor.val ++ b :: bs)
      = true)
    (hport : s.pending
      = List.zipWith (fun b t => Input.op ⟨encode (.rxb b), t⟩) (b :: bs) (u :: ts) ++ rest) :
    ∃ t, Host.Core.run Sys2Proof.core (bs.length + 1) s = .next t ∧
      FrameCompleted (List.replicate bs.length 0 ++ [1])
        ((Memory.bytes Config.params s.link.rxbuf).take s.link.cursor.val ++ b :: bs)
        (ts.getLastD u) rest s t := by
  induction bs generalizing s b u ts with
  | nil =>
    cases List.length_eq_zero_iff.1 hlen
    have hframe : (Memory.bytes Config.params s.link.rxbuf).take s.link.cursor.val ++ [b]
        = Memory.bytes Config.params (Memory.write s.link.rxbuf s.link.cursor b) := by
      rw [Memory.take_bytes_append_cons hwf, List.append_nil, List.take_of_length_le]
      exact (Memory.length_bytes _).trans_le hcount.ge
    have hexec := exec_rxb_of_valid (s := s.accept u rest) b (storeIndex_of_no_silence hquiet) hcount
      (hframe ▸ hok)
    exact ⟨_, run_succ_of_next 0 ((step_rxb hport).trans hexec), rfl, hframe.symm, rfl, rfl, rfl, rfl,
      rfl⟩
  | cons c bs ih =>
    cases ts with
    | nil => cases hlen
    | cons v ts =>
      obtain ⟨hgap, htail⟩ := List.isChain_cons_cons.1 hgaps
      rw [List.length_cons] at hcount
      have hk : s.link.cursor.val + 1 < 20 := by omega
      have hcount' : s.link.cursor.val + 1 + bs.length + 1 = 20 := by omega
      rw [Memory.take_bytes_append_cons hwf] at hok
      rw [Memory.take_bytes_append_cons hwf, List.length_cons, List.replicate_succ, List.cons_append,
        List.getLastD_cons]
      exact run_succ_completes_frame (step_rxb_of_no_silence hport hquiet hk) rfl rfl rfl
        (ih (Memory.wf_write hwf _ b) hcount' (Nat.succ.inj hlen) (silenceExpired_of_age_le hgap) htail
          hok rfl)

/-- Twenty bytes with no partial frame before them are what a frame lacks. -/
theorem run_twenty_completes_frame {bs : List Byte} {ts : List Time} {s : State} {rest : List Input}
    (hwf : Memory.wf Config.params s.link.rxbuf = true) (hcursor : s.link.cursor.val = 0)
    (hbs : bs.length = 20) (hok : checksumOk bs = true) (hts : ts.length = 20)
    (hgaps : List.IsChain (fun a b : Time => age b a ≤ 50) ts)
    (hport : s.pending = List.zipWith (fun b t => Input.op ⟨encode (.rxb b), t⟩) bs ts ++ rest) :
    ∃ t, Host.Core.run Sys2Proof.core 20 s = .next t ∧
      FrameCompleted (List.replicate 19 0 ++ [1]) bs (ts.getLastD 0) rest s t := by
  obtain ⟨b, bs, rfl⟩ := List.exists_cons_of_length_eq_add_one hbs
  obtain ⟨u, ts, rfl⟩ := List.exists_cons_of_length_eq_add_one hts
  have hbs' : bs.length = 19 := Nat.succ.inj hbs
  have htake : (Memory.bytes Config.params s.link.rxbuf).take s.link.cursor.val = [] := by
    rw [hcursor, List.take_zero]
  have hrun := run_rxb_completes_frame (b := b) (bs := bs) hwf (by omega)
    (Nat.succ.inj (hts.trans hbs.symm)) (silenceExpired_of_cursor_zero hcursor) hgaps
    (by rw [htake]; exact hok) hport
  rw [htake, hbs'] at hrun
  rw [List.getLastD_cons]
  exact hrun

/-- After a silence the first byte begins a frame, which nineteen more complete. -/
theorem run_twenty_after_silence_completes_frame {bs : List Byte} {ts : List Time} {s : State}
    {rest : List Input} (hwf : Memory.wf Config.params s.link.rxbuf = true)
    (hsilence : silenceExpired (ts.headD 0) s.link = true)
    (hbs : bs.length = 20) (hok : checksumOk bs = true) (hts : ts.length = 20)
    (hgaps : List.IsChain (fun a b : Time => age b a ≤ 50) ts)
    (hport : s.pending = List.zipWith (fun b t => Input.op ⟨encode (.rxb b), t⟩) bs ts ++ rest) :
    ∃ t, Host.Core.run Sys2Proof.core 20 s = .next t ∧
      FrameCompleted (4 :: (List.replicate 18 0 ++ [1])) bs (ts.getLastD 0) rest s t := by
  obtain ⟨b, bs, rfl⟩ := List.exists_cons_of_length_eq_add_one hbs
  obtain ⟨u, ts, rfl⟩ := List.exists_cons_of_length_eq_add_one hts
  have hbs' : bs.length = 19 := Nat.succ.inj hbs
  have hts' : ts.length = 19 := Nat.succ.inj hts
  obtain ⟨c, bs, rfl⟩ := List.exists_cons_of_length_eq_add_one hbs'
  obtain ⟨v, ts, rfl⟩ := List.exists_cons_of_length_eq_add_one hts'
  have hlen : bs.length = 18 := Nat.succ.inj hbs'
  have hcount : 1 + bs.length + 1 = 20 := by omega
  obtain ⟨hgap, htail⟩ := List.isChain_cons_cons.1 hgaps
  have hframe : b :: c :: bs
      = (Memory.bytes Config.params (Memory.write s.link.rxbuf (0 : FrameIndex) b)).take 1 ++ c :: bs :=
    Memory.take_bytes_append_cons hwf Config.params.firstIndex b (c :: bs)
  rw [hframe] at hok
  have hrun := run_succ_completes_frame (step_rxb_of_silence hport hsilence) rfl rfl rfl
    (run_rxb_completes_frame (Memory.wf_write hwf _ b) hcount (Nat.succ.inj (hts'.trans hbs'.symm))
      (silenceExpired_of_age_le hgap) htail hok rfl)
  rw [hlen] at hrun
  rw [hframe, List.getLastD_cons, List.getLastD_cons]
  exact hrun

/-- Settles O33, field by field of the completed frame. -/
theorem twentyBytesMakeAValidFrame : Obligations.TwentyBytesMakeAValidFrame := by
  unfold Obligations.TwentyBytesMakeAValidFrame
  intro s bs ts rest hwf hcursor hbs hok hts hgaps hport
  obtain ⟨t, hrun, hdone⟩ := run_twenty_completes_frame hwf hcursor hbs hok hts hgaps hport
  have hlast : ts.getLast? = some (ts.getLastD 0) := by
    obtain ⟨u, ts, rfl⟩ := List.exists_cons_of_length_eq_add_one hts
    rw [List.getLast?_cons, List.getLastD_cons, List.getLastD_eq_getLast?]
  exact ⟨t, hrun, by rw [hdone.results, List.append_assoc], hdone.pframe, hdone.cursor,
    by rw [hdone.lastValidTs, hlast], hdone.pulse, hdone.pending, hdone.replies⟩

/-- The step of a `TICK` on the port that fires (44_link_supervisor.md R130). -/
theorem step_tick_of_silence {s : State} {u : Time} {rest : List Input}
    (hport : s.pending = .op ⟨encode .tick, u⟩ :: rest) (hsilence : silenceExpired u s.link = true) :
    step s = .next (((s.accept u rest).setLink (discardPartial s.link)).returnWord 4) :=
  (step_of_decode hport (decode_encode rfl)).trans (if_pos hsilence)

/-- Settles O34: the first byte begins the frame itself, or the `TICK` leaves no partial frame before it. -/
theorem silenceRealignsTheNextFrame : Obligations.SilenceRealignsTheNextFrame := by
  unfold Obligations.SilenceRealignsTheNextFrame
  intro s bs ts t0 rest hwf hcursor hbs hok hts hgaps
  refine ⟨fun hage hport => ?_, fun hage hport => ?_⟩
  · have hsilence := (silenceExpired_iff _ _).2 ⟨hcursor, hage⟩
    obtain ⟨t, hrun, hdone⟩ :=
      run_twenty_after_silence_completes_frame hwf hsilence hbs hok hts hgaps hport
    exact ⟨t, hrun, by rw [hdone.results]; simp, hdone.pframe, hdone.cursor, hdone.pending⟩
  · have hsilence := (silenceExpired_iff _ _).2 ⟨hcursor, hage⟩
    obtain ⟨t, hrun, hdone⟩ := run_succ_completes_frame (step_tick_of_silence hport hsilence) rfl rfl
      rfl (run_twenty_completes_frame hwf rfl hbs hok hts hgaps rfl)
    exact ⟨t, hrun, by rw [hdone.results]; simp, hdone.pframe, hdone.cursor, hdone.pending⟩

end Sys2Proof.Machine
end

section
/-! SUPPORT. The statements of 44_link_supervisor.md: the two completions of `TICK`, the throttle map as a
monotone map with exact ends, and the throttle level that `RDTHR` returns. -/

namespace Sys2Proof.Machine

/-! ### The two completions of `TICK` (R130) -/

section

variable {s : State}

theorem exec_tick_of_silence (h : silenceExpired s.now s.link = true) :
    exec .tick s = .next ((s.setLink (discardPartial s.link)).returnWord 4) := if_pos h

theorem exec_tick_of_no_silence (h : ¬ silenceExpired s.now s.link = true) :
    exec .tick s = .next (s.returnWord 0) := if_neg h

end

/-- Settles O41: the silence test decides between the two completions. -/
theorem tickDiscardsAStalePartialFrame : Obligations.TickDiscardsAStalePartialFrame := by
  unfold Obligations.TickDiscardsAStalePartialFrame
  intro s
  rw [← silenceExpired_iff]
  exact ⟨exec_tick_of_silence, exec_tick_of_no_silence⟩

/-! ### The throttle map (R135) -/

theorem throttleMap_mono {x y : Nat} (h : x ≤ y) :
    throttleMap Config.params x ≤ throttleMap Config.params y := by
  have hscaled : 195 * x / 1023 ≤ 195 * y / 1023 := Nat.div_le_div_right (Nat.mul_le_mul_left 195 h)
  simpa only [throttleMap_eq] using Nat.add_le_add_left hscaled 60

theorem throttleMap_zero : throttleMap Config.params 0 = 60 := rfl

theorem throttleMap_top : throttleMap Config.params 1023 = 255 := rfl

/-! ### The throttle level (R136) -/

section

variable (L : Layout Config.params) (s : State)

theorem State.throttleLevel_eq :
    s.throttleLevel L = if 1000 < age s.now s.link.lastValidTs then 0
      else throttleMap Config.params (s.params L).throttle.toNat := by
  simp only [State.throttleLevel, failsafe_iff]

variable {s}

theorem State.throttleLevel_of_failsafe (h : failsafe s.now s.link = true) : s.throttleLevel L = 0 :=
  if_pos h

/-- With the link up, the ten bits of the throttle lie between the ends of the map. -/
theorem State.throttleLevel_range_of_no_failsafe (h : failsafe s.now s.link = false) :
    60 ≤ s.throttleLevel L ∧ s.throttleLevel L ≤ 255 := by
  have hlevel : s.throttleLevel L = throttleMap Config.params (s.params L).throttle.toNat :=
    if_neg (by simp [h])
  have htop : (s.params L).throttle.toNat ≤ 1023 := Nat.le_of_lt_succ (s.params L).throttle.isLt
  rw [hlevel]
  exact ⟨throttleMap_zero ▸ throttleMap_mono (Nat.zero_le _),
    throttleMap_top ▸ throttleMap_mono htop⟩

variable (s)

/-- The level fits its result word under either value of the failsafe. -/
theorem State.throttleLevel_word_toNat :
    (BitVec.ofNat 16 (s.throttleLevel L)).toNat = s.throttleLevel L := by
  have hfits : s.throttleLevel L ≤ 255 := by
    cases h : failsafe s.now s.link with
    | true => rw [State.throttleLevel_of_failsafe L h]; decide
    | false => exact (State.throttleLevel_range_of_no_failsafe L h).2
  exact Nat.mod_eq_of_lt (by omega)

theorem exec_rdthr :
    exec .rdthr s = .next (s.returnWord (BitVec.ofNat 16 (s.throttleLevel Config.layout))) := rfl

end

/-- Settles O45: the word is the level, which is the map of the throttle unless the link is lost. -/
theorem rdthrReturnsTheThrottleLevel : Obligations.RdthrReturnsTheThrottleLevel := by
  unfold Obligations.RdthrReturnsTheThrottleLevel
  intro s
  refine ⟨_, exec_rdthr s, ?_⟩
  rw [State.throttleLevel_word_toNat, State.throttleLevel_eq, throttleMap_eq, age]

/-- Settles O46: each claim is a law of the level or of the map. -/
theorem throttleLevelRange : Obligations.ThrottleLevelRange := by
  unfold Obligations.ThrottleLevelRange
  exact ⟨fun L _ => ⟨State.throttleLevel_of_failsafe L, State.throttleLevel_range_of_no_failsafe L⟩,
    fun _ _ => throttleMap_mono, throttleMap_zero, throttleMap_top⟩

end Sys2Proof.Machine
end

section
/-! SUPPORT. The statements of 45_readout.md: what `NOP`, `RDPAR` and `RDFRM` return. -/

namespace Sys2Proof.Machine

/-! ### Fields extended to a result word (R146, R147) -/

theorem zextByte_toNat (b : Byte) : (b.setWidth 16).toNat = b.toNat :=
  BitVec.toNat_setWidth_of_le (by decide)

/-- `len` bits from bit `lo` on, as a number: the quotient drops the bits below, the remainder those above. -/
theorem zextSlice_toNat {w len : Nat} (x : BitVec w) (lo : Nat) (hlen : len ≤ 16) :
    ((x.extractLsb' lo len).setWidth 16).toNat = x.toNat / 2 ^ lo % 2 ^ len := by
  rw [BitVec.toNat_setWidth_of_le hlen, BitVec.extractLsb'_toNat, Nat.shiftRight_eq_div_pow]

/-! ### The completions of the read-outs -/

theorem exec_nop (s : State) : exec .nop s = .next (s.returnWord 0) := rfl

theorem exec_rdpar (f : Field) (s : State) :
    exec (.rdpar f) s = .next (s.returnWord ((s.params Config.layout).field f)) := rfl

/-- An index of `FRAME_LEN` or more is reserved (30_encoding.md R60). -/
theorem exec_rdfrm_of_ge {i : BitVec 5} (hi : 20 ≤ i.toNat) (s : State) :
    exec (.rdfrm i) s = .refused (.reservedWord .reservedIndex) :=
  dif_neg (Nat.not_lt.2 hi)

section

variable {f : Field} {s : State}

/-- `RDPAR` returns the number its field stands for; which number that is depends on the field's form. -/
theorem rdpar_returns {n : Nat} (hfield : ((s.params Config.layout).field f).toNat = n) :
    ∃ r : Word, exec (.rdpar f) s = .next (s.returnWord r) ∧ r.toNat = n :=
  ⟨_, exec_rdpar f s, hfield⟩

theorem rdpar_returns_byte {b : Byte} (hfield : (s.params Config.layout).field f = b.setWidth 16) :
    ∃ r : Word, exec (.rdpar f) s = .next (s.returnWord r) ∧ r.toNat = b.toNat :=
  rdpar_returns (hfield ▸ zextByte_toNat b)

theorem rdpar_returns_slice {w : Nat} {x : BitVec w} (lo len : Nat)
    (hfield : (s.params Config.layout).field f = (x.extractLsb' lo len).setWidth 16) (hlen : len ≤ 16) :
    ∃ r : Word, exec (.rdpar f) s = .next (s.returnWord r) ∧ r.toNat = x.toNat / 2 ^ lo % 2 ^ len :=
  rdpar_returns (hfield ▸ zextSlice_toNat x lo hlen)

end

/-! ### The statements -/

/-- Settles O49. -/
theorem nopReturnsZero : Obligations.NopReturnsZero := by
  unfold Obligations.NopReturnsZero
  exact exec_nop

/-- Settles O51, field by field: a byte, a pair (a whole word, which is not extended), or a bit slice. -/
theorem rdparReturnsEachField : Obligations.RdparReturnsEachField := by
  unfold Obligations.RdparReturnsEachField
  intro s L byte pair returns
  have throttle : returns .throttle (pair L.offThrottle % 1024) := by
    simpa using rdpar_returns_slice (s := s) (f := .throttle) 0 10 rfl (by decide)
  have pasMagnets : returns .pasMagnets (byte L.offFlags % 16) := by
    simpa using rdpar_returns_slice (s := s) (f := .pasMagnets) 0 4 rfl (by decide)
  exact ⟨rdpar_returns_byte rfl, rdpar_returns_byte rfl, rdpar_returns_byte rfl,
    rdpar_returns_byte rfl, rdpar_returns rfl, rdpar_returns_byte rfl, rdpar_returns_byte rfl,
    rdpar_returns_byte rfl, rdpar_returns_byte rfl, rdpar_returns rfl, throttle, pasMagnets,
    rdpar_returns_slice 6 1 rfl (by decide), rdpar_returns_slice 7 1 rfl (by decide)⟩

/-- Settles O52: below `FRAME_LEN` the byte is extended to the result word, from there on the index is
reserved. -/
theorem rdfrmReturnsTheLatchedByte : Obligations.RdfrmReturnsTheLatchedByte := by
  unfold Obligations.RdfrmReturnsTheLatchedByte
  exact fun i s => ⟨fun hi => ⟨_, exec_rdfrm hi rfl, zextByte_toNat _⟩, fun hi => exec_rdfrm_of_ge hi s⟩

end Sys2Proof.Machine
end

section
/-! SUPPORT. The statements of 60_exceptions.md: every admitted operation completes and no admitted run
stops, which operation reports which error event, and where the error levels show. -/

namespace Sys2Proof.Machine

open Sys2Proof.Safety

/-! ### Admitted operations complete, and admitted runs go on (R160, R177) -/

/-- What a completed operation does at the port: it returns one result word, and takes no other input. -/
theorem exec_returns_one_word {i : Instr} {s t : State} (h : exec i s = .next t) :
    ∃ r, t.results = s.results ++ [r] ∧ t.now = s.now ∧ t.pending = s.pending := by
  cases exec_effect h with
  | read | edge | tickQuiet | tickDiscards | rxbStores | rxbLatches => exact ⟨_, rfl, rfl, rfl⟩

/-- Settles O57: it completes, and a completion has the port's effect. -/
theorem everyAdmittedOperationCompletes : Obligations.EveryAdmittedOperationCompletes := by
  unfold Obligations.EveryAdmittedOperationCompletes
  intro i s hi
  obtain ⟨t, h⟩ := exec_completes hi s
  obtain ⟨r, hresult⟩ := exec_returns_one_word h
  exact ⟨t, r, h, hresult⟩

theorem step_of_idle {s : State} (hport : s.pending = []) : step s = .next s := by
  rw [step, fetch_idle hport]

theorem step_of_reset {s : State} {now0 : Time} {rest : List Input}
    (hport : s.pending = .reset now0 :: rest) :
    step s = .next (resetBlock now0 (s.accept now0 rest)) := by
  rw [step, fetch_reset hport]

/-- Settles O6: a quiet port offers the idle step. -/
theorem stepWaitsOnAQuietPort : Obligations.StepWaitsOnAQuietPort := by
  unfold Obligations.StepWaitsOnAQuietPort
  exact fun _ => step_of_idle

/-- A block on whose port no word is reserved waits, resets, or runs an admitted operation. -/
theorem step_completes {s : State} (hport : ∀ x ∈ s.pending, Admitted x) :
    ∃ t, step s = .next t := by
  cases hp : s.pending with
  | nil => exact ⟨s, step_of_idle hp⟩
  | cons input rest =>
    cases input with
    | reset now0 => exact ⟨_, step_of_reset hp⟩
    | op tr =>
      obtain ⟨i, hdecode⟩ : ∃ i, decode tr.word = .ok i := hport (.op tr) (by simp [hp])
      obtain ⟨-, hwf⟩ := encode_of_decode hdecode
      rw [step_of_decode hp hdecode]
      exact exec_completes hwf _

/-- A step takes the first input off the port, where there is one, and no other. -/
theorem step_takes_one_input {s t : State} (h : step s = .next t) : t.pending = s.pending.tail := by
  obtain ⟨hp, rfl⟩ | ⟨now0, rest, hp, rfl⟩ | ⟨tr, rest, i, hp, -, hexec⟩ := step_cases h
  · rw [hp, List.tail_nil]
  · rw [hp, List.tail_cons, resetBlock_pending, State.accept_pending]
  · obtain ⟨_, -, -, hrest⟩ := exec_returns_one_word hexec
    rw [hp, List.tail_cons, hrest, State.accept_pending]

/-- Settles O58: what is left on the port was on it before. -/
theorem admittedStepsGoOn : Obligations.AdmittedStepsGoOn := by
  unfold Obligations.AdmittedStepsGoOn
  intro s hport
  obtain ⟨t, hstep⟩ := step_completes hport
  refine ⟨t, hstep, fun x hx => hport x ?_⟩
  exact List.mem_of_mem_tail (step_takes_one_input hstep ▸ hx)

/-- Settles O59, by induction on the number of steps: the first leaves an admitted port to the rest. -/
theorem admittedRunsNeverStop : Obligations.AdmittedRunsNeverStop := by
  unfold Obligations.AdmittedRunsNeverStop
  intro n
  induction n with
  | zero => exact fun s _ => ⟨s, rfl, rfl⟩
  | succ n ih =>
    intro s hport
    obtain ⟨s', hstep, hport'⟩ := admittedStepsGoOn s hport
    obtain ⟨t, hrun, hrest⟩ := ih s' hport'
    refine ⟨t, (run_succ_of_next n hstep).trans hrun, ?_⟩
    rw [hrest, step_takes_one_input hstep, List.drop_tail]

/-! ### The two agents (R174) -/

theorem agent_eq_edgeSide_iff (i : Instr) : i.agent = .edgeSide ↔ i = .edge := by
  cases i <;> simp [Instr.agent]

/-- Settles O56: the edge side issues `EDGE` and the poll side does not. -/
theorem agentsWriteDisjointRegisters : Obligations.AgentsWriteDisjointRegisters := by
  unfold Obligations.AgentsWriteDisjointRegisters
  intro i s t h
  refine ⟨fun hpoll => exec_keeps_pulse h ?_, fun hedge => ?_⟩
  · rintro rfl
    cases hpoll
  · obtain rfl := (agent_eq_edgeSide_iff i).1 hedge
    obtain ⟨hlink, hpframe, -⟩ := edgeWritesPulseTimingAlone s t h
    exact ⟨hlink, hpframe⟩

/-! ### The words that report events (30_encoding.md R70) -/

section

variable (timeout : Bool) (o : FrameOutcome)

theorem rxbWord_outcomeBits : (rxbWord timeout o).extractLsb' 0 2 = o.code := by
  cases timeout <;> cases o <;> rfl

theorem rxbWord_timeoutBit : (rxbWord timeout o).extractLsb' 2 1 = BitVec.ofBool timeout := by
  cases timeout <;> cases o <;> rfl

theorem rxbWord_getLsbD_two : (rxbWord timeout o).getLsbD 2 = timeout := by
  cases timeout <;> cases o <;> rfl

end

section

variable {i : Instr} {s t : State}

/-- The word an `RXB` returns. -/
theorem exec_rxb_results {b : Byte} (h : exec (.rxb b) s = .next t) :
    t.results = s.results
      ++ [rxbWord (silenceExpired s.now s.link) (frameOutcome s.now b s.link)] := by
  cases exec_effect h with
  | read _ hrxb => exact absurd rfl (hrxb b)
  | rxbStores => rfl
  | rxbLatches _ hvalid => rw [hvalid]; rfl

/-- The word a `TICK` returns is that of a byte which completes no frame. -/
theorem exec_tick_results (h : exec .tick s = .next t) :
    t.results = s.results ++ [rxbWord (silenceExpired s.now s.link) .incomplete] := by
  cases exec_effect h with
  | read _ _ htick => exact absurd rfl htick
  | tickQuiet hquiet => rw [hquiet]; rfl
  | tickDiscards hsilence => rw [hsilence]; rfl

/-! ### Which operation reports which event (R162, R163) -/

theorem checksumMismatch_mem_reportedEvents_iff {r : Word} :
    ErrorCode.checksumMismatch ∈ reportedEvents i r ↔
      ∃ b, i = .rxb b ∧ r.extractLsb' 0 2 = FrameOutcome.checksumMismatch.code := by
  cases i <;> simp [reportedEvents, FrameOutcome.code]

theorem frameTimeout_mem_reportedEvents_iff {r : Word} :
    ErrorCode.frameTimeout ∈ reportedEvents i r ↔
      (i = .tick ∨ ∃ b, i = .rxb b) ∧ r.extractLsb' 2 1 = BitVec.ofBool true := by
  cases i <;> simp [reportedEvents]

theorem FrameOutcome.code_inj {o o' : FrameOutcome} : o.code = o'.code ↔ o = o' := by
  cases o <;> cases o' <;> decide

theorem frameOutcome_eq_checksumMismatch_iff {u : Time} {b : Byte} {l : LinkState Config.params} :
    frameOutcome u b l = .checksumMismatch ↔
      (storeIndex u l).val = 19 ∧
        checksumOk (Memory.bytes Config.params (storeByte u b l).rxbuf) = false := by
  obtain ⟨ho, hk⟩ | ⟨ho, -, hok⟩ | ⟨ho, hk, hbad⟩ := frameOutcome_cases u b l
  · have hne : (storeIndex u l).val ≠ 19 := by omega
    simp [ho, hne]
  · rw [ho, hok]
    simp
  · rw [ho, hbad]
    exact iff_of_true rfl ⟨Nat.succ.inj hk, rfl⟩

theorem frameTimeout_reported_iff {r : Word} (hi : i = .tick ∨ ∃ b, i = .rxb b)
    (h : exec i s = .next t) (hr : t.results = s.results ++ [r]) :
    r.extractLsb' 2 1 = BitVec.ofBool true ↔ silenceExpired s.now s.link = true := by
  obtain ⟨o, hword⟩ : ∃ o, t.results = s.results ++ [rxbWord (silenceExpired s.now s.link) o] := by
    obtain rfl | ⟨b, rfl⟩ := hi
    · exact ⟨_, exec_tick_results h⟩
    · exact ⟨_, exec_rxb_results h⟩
  obtain rfl : r = _ := by simpa using hr.symm.trans hword
  rw [rxbWord_timeoutBit]
  cases silenceExpired s.now s.link <;> decide

theorem checksumMismatch_reported_iff {b : Byte} {r : Word}
    (h : exec (.rxb b) s = .next t) (hr : t.results = s.results ++ [r]) :
    r.extractLsb' 0 2 = FrameOutcome.checksumMismatch.code ↔
      (storeIndex s.now s.link).val = 19 ∧
        checksumOk (Memory.bytes Config.params t.link.rxbuf) = false := by
  obtain rfl : r = _ := by simpa using hr.symm.trans (exec_rxb_results h)
  rw [rxbWord_outcomeBits, FrameOutcome.code_inj, frameOutcome_eq_checksumMismatch_iff,
    storeByte_rxbuf, exec_rxb_rxbuf h]

end

/-- Settles O42: the bits a word carries are the outcome of the byte and the silence test. -/
theorem eventsHaveTheirOneCause : Obligations.EventsHaveTheirOneCause := by
  unfold Obligations.EventsHaveTheirOneCause
  intro i s t r h hr
  rw [checksumMismatch_mem_reportedEvents_iff, frameTimeout_mem_reportedEvents_iff]
  refine ⟨exists_congr fun b => and_congr_right ?_,
    and_congr_right fun hi => frameTimeout_reported_iff hi h hr⟩
  rintro rfl
  exact checksumMismatch_reported_iff h hr

/-- Settles O44: a byte that completes a frame ends no silence. -/
theorem timeoutNeverMeetsCompletion : Obligations.TimeoutNeverMeetsCompletion := by
  unfold Obligations.TimeoutNeverMeetsCompletion
  intro b s t h
  refine ⟨_, exec_rxb_results h, ?_⟩
  obtain ⟨ho, -⟩ | ⟨ho, hk, -⟩ | ⟨ho, hk, -⟩ := frameOutcome_cases s.now b s.link
  · rw [ho]
    cases silenceExpired s.now s.link <;> decide
  · rw [ho, silenceExpired_of_last hk]
    decide
  · rw [ho, silenceExpired_of_last hk]
    decide

/-! ### A timeout is reported once (R163) -/

/-- Only an `RXB` begins a partial frame. -/
theorem exec_keeps_cursor_zero {i : Instr} {s t : State} (h : exec i s = .next t)
    (hi : ∀ b, i ≠ .rxb b) (hcursor : s.link.cursor.val = 0) : t.link.cursor.val = 0 := by
  cases exec_effect h with
  | rxbStores b | rxbLatches b => exact absurd rfl (hi b)
  | tickDiscards => rfl
  | read | edge | tickQuiet => exact hcursor

/-- With no partial frame an `RXB` completes and reports no timeout. -/
theorem exec_rxb_reports_no_timeout {s : State} (b : Byte) (hcursor : s.link.cursor.val = 0) :
    ∃ t r, exec (.rxb b) s = .next t ∧ t.results = s.results ++ [r] ∧ r.getLsbD 2 = false := by
  obtain ⟨t, h⟩ := exec_completes (i := .rxb b) rfl s
  refine ⟨t, _, h, exec_rxb_results h, ?_⟩
  rw [rxbWord_getLsbD_two, silenceExpired_of_cursor_zero hcursor]

/-- Settles O43: with the cursor at 0 the silence test is false at every clock value. -/
theorem timeoutIsReportedOnce : Obligations.TimeoutIsReportedOnce := by
  unfold Obligations.TimeoutIsReportedOnce
  intro s t hsilence h
  cases (exec_tick_of_silence hsilence).symm.trans h
  refine ⟨rfl, fun later => ⟨exec_tick_of_no_silence ?_, fun b => ?_, fun i t' hi ht' => ?_⟩⟩
  · rw [silenceExpired_of_cursor_zero rfl]
    decide
  · exact exec_rxb_reports_no_timeout b rfl
  · have hcursor := exec_keeps_cursor_zero ht' hi rfl
    exact ⟨hcursor, fun _ => silenceExpired_of_cursor_zero hcursor⟩

/-! ### The error levels (R164, R165) -/

section

variable {s : State}

theorem linkLoss_mem_levels_iff : ErrorCode.linkLoss ∈ s.levels ↔ failsafe s.now s.link = true := by
  simp [State.levels]

theorem sensorStall_mem_levels_iff :
    ErrorCode.sensorStall ∈ s.levels ↔ stalled s.now s.pulse = true := by
  simp [State.levels]

/-- Bit 0 of the status word is the failsafe level (30_encoding.md R71). -/
theorem statWord_getLsbD_zero {P : Params} (cursor : P.FrameIndex) (st fs : Bool) :
    (statWord cursor st fs).getLsbD 0 = fs := by
  rw [← BitVec.testBit_toNat, statWord_toNat, Nat.testBit_eq_decide_div_mod_eq]
  cases st <;> cases fs <;> simp <;> omega

theorem exec_rdthr_of_failsafe (h : failsafe s.now s.link = true) :
    exec .rdthr s = .next (s.returnWord 0) := by
  rw [exec_rdthr, State.throttleLevel_of_failsafe _ h]
  rfl

end

/-- Settles O48: the levels are the failsafe and the stalled level, which the status word shows. -/
theorem levelsShowWhereTheyAreReported : Obligations.LevelsShowWhereTheyAreReported := by
  unfold Obligations.LevelsShowWhereTheyAreReported
  intro s
  refine ⟨_, exec_rdstat s, ?_⟩
  rw [statWord_getLsbD_zero, statWord_getLsbD_one, linkLoss_mem_levels_iff,
    sensorStall_mem_levels_iff]
  exact ⟨.rfl, .rfl, exec_rdthr_of_failsafe,
    fun h => (exec_rdspd_rdpul_of_speed_zero (State.speed_of_stalled h)).1⟩

end Sys2Proof.Machine
end

section
/-! SUPPORT. The statements of 70_reset_and_hazards.md: what a reset writes and leaves, the invariants at
reset, and the outputs of the reset registers and of the reset frame. -/

namespace Sys2Proof.Machine

open Sys2Proof.Safety

/-! ### The state after reset (R190, R191) -/

/-- The state after reset is what a reset makes of a machine with a quiet port. -/
theorem State.resetAt_eq_resetBlock (now0 : Time) :
    State.resetAt now0 = resetBlock now0 State.reset := rfl

/-- Settles O7: the reset writes every register, and an empty byte space reads 0x00 everywhere. -/
theorem resetGivesEveryRegisterItsValue : Obligations.ResetGivesEveryRegisterItsValue := by
  unfold Obligations.ResetGivesEveryRegisterItsValue
  intro s now0 rest hport
  exact ⟨_, step_of_reset hport, rfl, rfl, rfl, rfl, rfl, Memory.read_nil, rfl, rfl, Memory.read_nil⟩

/-- Settles O8: the reset touches no field of the port but the clock value. -/
theorem resetLeavesThePortToTheEnvironment : Obligations.ResetLeavesThePortToTheEnvironment := by
  unfold Obligations.ResetLeavesThePortToTheEnvironment
  intro s now0 rest hport
  exact ⟨_, step_of_reset hport, rfl, rfl, rfl, rfl⟩

/-! ### The invariants at reset -/

theorem State.resetAt_repliesValid (now0 : Time) : RepliesValid (State.resetAt now0) :=
  fun _ hmem => absurd hmem List.not_mem_nil

/-- Settles O16: every reset establishes the timing invariant, the one at 0 among them. -/
theorem windowTimingHoldsAtReset : Obligations.WindowTimingHoldsAtReset := by
  unfold Obligations.WindowTimingHoldsAtReset
  exact fun now0 => ⟨resetBlock_windowTiming now0 State.reset, resetBlock_windowTiming 0 State.reset⟩

/-- Settles O38: every reset establishes the framer's invariants, the one at 0 among them. -/
theorem framerInvariantsHoldAtReset : Obligations.FramerInvariantsHoldAtReset := by
  unfold Obligations.FramerInvariantsHoldAtReset
  exact fun now0 =>
    ⟨resetBlock_memoryCanonical now0 State.reset, resetBlock_latchedFrameValid now0 State.reset,
      State.resetAt_repliesValid now0, resetBlock_memoryCanonical 0 State.reset,
      resetBlock_latchedFrameValid 0 State.reset, State.resetAt_repliesValid 0⟩

/-! ### The reset frame (R191, R194) -/

section

variable {P : Params}

@[simp] theorem byteAt_nil (k : P.ByteOffset) : byteAt [] k = 0 := Memory.read_nil _

/-- Two zero bytes are the zero word. -/
@[simp] theorem pairAt_nil (k : P.PairOffset) : pairAt [] k = 0 := by
  rw [pairAt, Memory.read_nil, Memory.read_nil]
  rfl

/-- Whatever the layout, every field of the zero frame is 0: a zero byte, a zero pair, or bits of one. -/
theorem decodeParams_nil_field (L : Layout P) (f : Field) : (decodeParams L []).field f = 0 := by
  cases f <;> simp [decodeParams, Parameters.field]

end

section

variable {s : State}

theorem State.params_field_of_pframe_nil (L : Layout Config.params) (h : s.pframe = []) (f : Field) :
    (s.params L).field f = 0 := by
  rw [State.params, h, decodeParams_nil_field]

theorem State.params_throttle_of_pframe_nil (L : Layout Config.params) (h : s.pframe = []) :
    (s.params L).throttle.toNat = 0 := by
  simp [State.params, h, decodeParams]

/-- The reset frame asks for no throttle, so the level is the off floor or the failsafe's. -/
theorem State.throttleLevel_of_pframe_nil (L : Layout Config.params) (h : s.pframe = []) :
    s.throttleLevel L = if age s.now s.link.lastValidTs ≤ 1000 then 60 else 0 := by
  rw [State.throttleLevel_eq, State.params_throttle_of_pframe_nil L h, throttleMap_zero, ← ite_not]
  simp only [not_lt]

end

/-- Settles O10: the word is the level of the reset frame. -/
theorem noDrivePowerBeforeAFrame : Obligations.NoDrivePowerBeforeAFrame := by
  unfold Obligations.NoDrivePowerBeforeAFrame
  intro s hframe
  rw [exec_rdthr, State.throttleLevel_of_pframe_nil _ hframe, apply_ite (BitVec.ofNat 16)]
  rfl

/-! ### The outputs right after reset (R192) -/

/-- No time has passed at the moment itself. -/
@[simp] theorem age_self {w : Nat} (t : BitVec w) : age t t = 0 := by
  rw [age_of_le le_rfl, Nat.sub_self]

section

variable (now0 : Time)

/-- No window has closed since a reset (42_speed_estimator.md R98). -/
theorem State.resetAt_stalled : stalled (State.resetAt now0).now (State.resetAt now0).pulse = true :=
  (stalled_iff ..).2 (.inl rfl)

theorem State.resetAt_age_lastValidTs :
    age (State.resetAt now0).now (State.resetAt now0).link.lastValidTs = 0 := by
  simp [State.resetAt_eq_resetBlock]

/-- A reset starts the link's timeout afresh (44_link_supervisor.md R132). -/
theorem State.resetAt_no_failsafe :
    failsafe (State.resetAt now0).now (State.resetAt now0).link = false := by
  rw [Bool.eq_false_iff, Ne, failsafe_iff, State.resetAt_age_lastValidTs]
  decide

end

/-- Settles O9: a stalled sensor with the link up, and the frame of zeros. -/
theorem outputsRightAfterReset : Obligations.OutputsRightAfterReset := by
  unfold Obligations.OutputsRightAfterReset
  intro now0
  obtain ⟨hspeed, hpulses⟩ := exec_rdspd_rdpul_of_speed_zero
    (State.speed_of_stalled (L := Config.layout) (State.resetAt_stalled now0))
  refine ⟨hspeed, hpulses, ?_, ?_, fun f => ?_⟩
  · rw [noDrivePowerBeforeAFrame _ rfl, State.resetAt_age_lastValidTs, if_pos (Nat.zero_le _)]
  · have hcursor : (State.resetAt now0).link.cursor = (0 : FrameIndex) := rfl
    rw [exec_rdstat, State.resetAt_stalled, State.resetAt_no_failsafe, hcursor]
    rfl
  · rw [exec_rdpar, State.params_field_of_pframe_nil _ rfl]

end Sys2Proof.Machine
end
